-- ==== Sys2Proof/Word.lean ====
section
/-! DEFINITION. The word types of the unit and its small index types (00_scope.md 0.9, 12.1): what the handbook treats as
bits is a bit vector, what it numbers is a bounded number. -/

namespace Sys2Proof

/-- One byte of a frame. -/
abbrev Byte := BitVec 8
/-- A 4-byte field: run numbers, sequence numbers, order numbers, the millisecond counter. -/
abbrev Word := BitVec 32
/-- A 16-byte block of the cipher (R31), first byte most significant. -/
abbrev Block := BitVec 128
/-- An 8-byte chain tag (R34). -/
abbrev Tag := BitVec 64
/-- A 3-byte check value (R35). -/
abbrev Check := BitVec 24
/-- Bytes in the order sent. -/
abbrev Bytes := List Byte

/-- A key slot, 0 to 63 (R1). -/
abbrev SlotNo := Fin 64
/-- An encoder line, L0 to L7 (R100). -/
abbrev LineNo := Fin 8
/-- A tamper sensor, S0 to S5 (R154). -/
abbrev SensorNo := Fin 6
/-- A line group: A, B, C, D are 0, 1, 2, 3 (R105, 12.2). -/
abbrev GroupNo := Fin 4
/-- An entry of the Recipe Table, 0 to 31 (R78). -/
abbrev RecipeNo := Fin 32

end Sys2Proof
end

