-- ==== Sys2Proof/Syntax.lean ====
section
/-! DEFINITION. The commands of the unit: one constructor per row of spec/opcode_table.json, in the table's order.

An ORDER's parameters are the bytes of the frame that ORDER_FRAME hands to the Order Unit; they stand in State as the order in
hand (R137), and the row of the order is the event at which that order is decided (R140). So the order rows carry no copy of
the parameters. Four of them carry the one thing the decision reads from outside: the level of the commissioning contact at
that event, which the unit does not latch (R142). -/

namespace Sys2Proof

/-- The two record ports (R122). -/
inductive Port where
  | upstream
  | onward
  deriving DecidableEq, Repr

/-- The commands, one per row of the table of operations and events. -/
inductive Instr where
  /-- STATUS (R177): STATUS order, directed or broadcast: reports counters, masks, clocks and custody state, and clears the notices-lost counter if the clear flag is set. -/
  | status
  /-- GRANT (R145): A custodian's grant naming a target order number is checked and appended to the grant gate. -/
  | grant
  /-- LOAD_CLEAR (R9): In FACTORY with the commissioning contact asserted, loads a clear key into slot 0 to 6 after checking its check value. -/
  | loadClear (contact : Bool)
  /-- SET_UNIT (R142): In FACTORY with the commissioning contact asserted, writes the unit address and the chain-end setting. -/
  | setUnit (contact : Bool)
  /-- COMMISSION (R10): Moves the custody state from FACTORY to OPERATIONAL when slot 0 and at least two custodian slots are ACTIVE. -/
  | commission (contact : Bool)
  /-- BEGIN_KEY (R11): Makes an EMPTY general slot ASSEMBLING, with its class, components required, expected check value, label, ceiling and a 600,000 ms deadline. -/
  | beginKey
  /-- LOAD_COMPONENT (R12): Checks a wrapped component for an assembling slot and presents its unwrap step on the Key Store side of the Cipher Core. -/
  | loadComponent
  /-- LOAD_WRAPPED_KEY (R15): Checks a whole key wrapped under an IMPORT slot and presents its unwrap and check-value steps. -/
  | loadWrappedKey
  /-- LOCK_SLOT (R16): Sets the lock of a general slot. -/
  | lockSlot
  /-- UNLOCK_SLOT (R16): A dual order that clears the lock of a general slot. -/
  | unlockSlot
  /-- RETIRE_SLOT (R17): Makes an ACTIVE unlocked general slot RETIRED, so that it grants no further use. -/
  | retireSlot
  /-- ERASE_SLOT (R18): A dual order that empties an unlocked slot named by nothing still working and starts a scrub pass; answered STARTED. -/
  | eraseSlot
  /-- SET_CEILING (R22): Sets a new use ceiling on an ACTIVE slot, either 0 or above its present use counter. -/
  | setCeiling
  /-- READ_SLOT (R19): Reports a slot's state and fields, never its key value or accumulator. -/
  | readSlot
  /-- WAKE (R26): In DORMANT, begins a slot verify with cause WAKE; answered STARTED. -/
  | wake
  /-- ZEROISE (R27): Ordered zeroisation: makes a tamper record entry and destroys every key; answered STARTED, untagged. -/
  | zeroise
  /-- ACK_TAMPER (R166): Empties the tamper record; in ZEROISED, with the commissioning contact asserted, also moves the unit to FACTORY and releases inactive LATCHED sensors. -/
  | ackTamper (contact : Bool)
  /-- OPEN_RUN (R47): Checks and creates a DEFINED run record with its clamped parameters, allowance and initial window. -/
  | openRun
  /-- RELEASE_RUN (R50): Removes ORDER, and removes KEY if the run's keys are usable, making the run LIVE when no hold cause is left. -/
  | releaseRun
  /-- HOLD_RUN (R51): Adds the hold cause ORDER to a DEFINED, LIVE or HELD run. -/
  | holdRun
  /-- ADD_ALLOWANCE (R53): Raises a run's spoil allowance, capped at Q, and removes OVERSPOIL if spoiled is no longer above the allowance. -/
  | addAllowance
  /-- CLOSE_RUN (R71): Makes a run CLOSING, withdraws its staged records and tests whether it can close. -/
  | closeRun
  /-- WRITE_OFF_CARD (R73): Voids an OPEN or SPOILED position within the window and advances the low mark. -/
  | writeOffCard
  /-- DELETE_RUN (R74): Removes a CLOSED run from the Run Table. -/
  | deleteRun
  /-- READ_RUN (R75): Reports a run record and the positions of its window. -/
  | readRun
  /-- DEFINE_RECIPE (R80): Checks a recipe as a whole and writes it into an entry of the Recipe Table. -/
  | defineRecipe
  /-- READ_RECIPE (R81): Reports a defined recipe and the number of runs, not CLOSED, that name it. -/
  | readRecipe
  /-- SET_LINE (R106): Sets a line's key slot, its credit limit and its group membership. -/
  | setLine
  /-- SET_GROUP_MEMBERS (R107): Replaces the membership of a group. -/
  | setGroupMembers
  /-- SET_GROUP_KEY (R108): Writes a line key slot into every member of a group. -/
  | setGroupKey
  /-- SET_GROUP_CREDIT (R109): Writes a credit limit into every member of a group. -/
  | setGroupCredit
  /-- BAR_LINE (R110): Sets a line's barred flag. -/
  | barLine
  /-- UNBAR_LINE (R110): Clears a line's barred flag. -/
  | unbarLine
  /-- CLEAR_LINE (R112): Returns a line's consecutive-lapse count to 0 and removes the fault cause LAPSES. -/
  | clearLine
  /-- PRODUCTION_ON (R113): Sets the production switch ON and clears the consecutive lapses and the LAPSES cause of every line. -/
  | productionOn
  /-- PRODUCTION_OFF (R113): Sets the production switch OFF, directed or as a broadcast. -/
  | productionOff
  /-- READ_LINE (R119): Reports a line record, clears its link error flags, and clears its counters if the clear flag is set. -/
  | readLine
  /-- READ_LINK_ERRORS (R134): Reports and clears the nine record-port link error flags, and reports the queue lengths, the unit address and the chain end. -/
  | readLinkErrors
  /-- SET_SENSOR (R160): A dual order that writes a sensor's full configuration and moves its status as the new configuration requires. -/
  | setSensor
  /-- RESUME (R159): A dual order that releases every LATCHED sensor whose input is inactive and removes its cause from the suspend set. -/
  | resume
  /-- OPEN_CABINET (R161): A dual order that opens the maintenance window, asserts the lock release and holds off S0. -/
  | openCabinet
  /-- CLOSE_CABINET (R162): Closes the maintenance window, negates the lock release and ceases to hold off S0. -/
  | closeCabinet
  /-- READ_TAMPER_RECORD (R165): Reports the tamper record, the tamper counters, the sensors and the maintenance window. -/
  | readTamperRecord
  /-- SET_TIME (R171): Writes the seconds clock and clears its limit flag. -/
  | setTime
  /-- SET_NOTICE_MASK (R173): Writes the notice mask, which must keep TAMPER and POWER enabled. -/
  | setNoticeMask
  /-- SET_ALARM_MASK (R178): Writes the alarm mask over the sixteen conditions. -/
  | setAlarmMask
  /-- SET_IDLE_LIMIT (R187): Writes the idle limit and starts the idle timer, or stops it if the limit is 0. -/
  | setIdleLimit
  /-- UNKNOWN_ORDER_CODE (R140): An accepted order whose code the unit does not know is refused NO SUCH and empties the gate. -/
  | unknownOrderCode
  /-- ORDER_FRAME (R126): An ORDER frame received whole on the upstream port is checked and handed to the Order Unit, placed in the onward queue, treated as a broadcast, or discarded. -/
  | orderFrame (frame : Bytes)
  /-- RECORD (R57): A RECORD frame received whole on the upstream port is admitted to the Staging Queue, refused with a REFUSAL notice, or passed onward. -/
  | record (frame : Bytes)
  /-- UPSTREAM_FRAME_ERROR (R124): A frame received whole on the upstream port fails a length, frame-check, kind or unit check and is discarded with a link error flag. -/
  | upstreamFrameError (frame : Bytes)
  /-- ENGINE_CIPHER_STEP (R92): The result of an engine cipher step is delivered and the walk continues through its instances, key requests and writes. -/
  | engineCipherStep
  /-- LOAD_UNWRAP_END (R42): The last Key Store side step of a LOAD COMPONENT or LOAD WRAPPED KEY ends, and the order's effects on the slot, its notices and its answer are made. -/
  | loadUnwrapEnd
  /-- ANSWER_BUILT (R151): The tag of an answer has been computed, and the answer enters the answer slot. -/
  | answerBuilt
  /-- NOTICE_BUILT (R174): The tag of a queued notice has been computed, and the notice becomes ready in its place in the Notice Queue. -/
  | noticeBuilt
  /-- OUTCOME (R118): An OUTCOME frame received whole on a line port is checked and handed to the Run Controller as a settlement, a late outcome or a stray. -/
  | outcome (line : LineNo) (frame : Bytes)
  /-- LAPSE (R67): A position's outcome timer expires while it is OUT; the card is spoiled or voided, credit is returned and the line's lapse counts rise. -/
  | lapse (run : Word) (offset : Nat)
  /-- LINE_SEND_BEGIN (R115): A line port begins sending the oldest card frame in its transmit queue when its link is up and the station signals ready. -/
  | lineSendBegin (line : LineNo)
  /-- LINE_SEND_COMPLETE (R115): The last byte of a card frame has been sent, and the frame leaves the transmit queue. -/
  | lineSendComplete (line : LineNo)
  /-- LINE_LINK_LOSS (R111): A line port's link is lost, and the line gains the fault cause LINK. -/
  | lineLinkLoss (line : LineNo)
  /-- LINE_LINK_RESTORE (R111): A line port's link returns, and the fault cause LINK is removed. -/
  | lineLinkRestore (line : LineNo)
  /-- RELAY_FRAME (R130): A frame received whole on the onward port is checked and placed in the relay queue, or discarded with a flag. -/
  | relayFrame (frame : Bytes)
  /-- ONWARD_SEND_BEGIN (R129): The onward transmitter takes the oldest frame of the onward queue when the onward link is up and the next unit signals ready. -/
  | onwardSendBegin
  /-- ONWARD_SEND_COMPLETE (R122): The onward transmitter has sent the last byte of its frame. -/
  | onwardSendComplete
  /-- UPSTREAM_TRANSMIT_CHOICE (R131): The upstream arbiter chooses the next frame from the answer slot, the Notice Queue or the relay queue in rotation. -/
  | upstreamTransmitChoice
  /-- UPSTREAM_SEND_COMPLETE (R132): The upstream transmitter has sent the last byte of its frame and is free for the next choice. -/
  | upstreamSendComplete
  /-- PORT_LINK_LOSS (R122): A record port's link is lost: a frame being received is discarded, and a frame being sent is kept for resending. -/
  | portLinkLoss (port : Port)
  /-- PORT_LINK_RESTORE (R122): A record port's link returns, and sending resumes. -/
  | portLinkRestore (port : Port)
  /-- ASSEMBLY_LAPSE (R14): An ASSEMBLING slot's deadline is reached; the slot becomes EMPTY with a KEY notice ASSEMBLY LAPSED. -/
  | assemblyLapse (slot : SlotNo)
  /-- GATE_LAPSE (R149): The grant gate's lapse deadline is reached, and the gate is emptied. -/
  | gateLapse
  /-- SETTLING_EXPIRY (R186): The settling inhibit expires, and the store ceases to be SETTLING. -/
  | settlingExpiry
  /-- IDLE_MINUTE_DEADLINE (R187): A minute deadline of the idle timer is reached, and its minutes remaining fall by one. -/
  | idleMinuteDeadline
  /-- IDLE_TIMER_EXPIRY (R188): The idle timer expires with the unit OPERATIONAL, and the Key Store enters DORMANT. -/
  | idleTimerExpiry
  /-- SECONDS_CLOCK_ADVANCE (R171): Every thousandth tick the seconds clock rises by one, saturating with its limit flag. -/
  | secondsClockAdvance
  /-- SLOT_VERIFY_STEP (R24): The check value of a visited slot is computed and compared; a mismatch makes the slot DAMAGED. -/
  | slotVerifyStep
  /-- ERASE_SCRUB_COMPLETE (R18): The scrub pass of an erase completes, the store ceases to be BUSY, and a KEY notice ERASED is sent. -/
  | eraseScrubComplete
  /-- ZEROISE_SCRUB_COMPLETE (R27): The zeroise scrub pass completes, the store ceases to be BUSY, and a KEY notice ZEROISED is sent if main power is up. -/
  | zeroiseScrubComplete
  /-- SENSOR_INPUT_ACTIVE (R155): A sensor input becomes active, and an enabled IDLE sensor that is not held off begins qualifying, or trips at once with qualification 0. -/
  | sensorInputActive (sensor : SensorNo)
  /-- SENSOR_INPUT_INACTIVE (R158): A sensor input becomes inactive; a QUALIFYING sensor returns to IDLE, and a TRIPPED sensor is released and its cause removed. -/
  | sensorInputInactive (sensor : SensorNo)
  /-- QUALIFICATION_EXPIRY (R155): A sensor's qualification timer expires while its input is still active, and the sensor trips. -/
  | qualificationExpiry (sensor : SensorNo)
  /-- WINDOW_END (R162): The maintenance window's end is reached; the window closes, the lock release is negated, and S0 is no longer held off. -/
  | windowEnd
  /-- MAIN_LOSS (R181): Main power fails; the battery domain continues on battery, the loss time is written, and the main domain ceases. -/
  | mainLoss
  /-- FIRST_POWER (R182): Main power arrives with the validity mark clear; every item takes its first-power value and a POWER notice is offered. -/
  | firstPower
  /-- MAIN_RESTORE (R183): Main power returns with the validity mark set; the main domain resets, settling starts, a POWER notice is offered, assemblies lapse, and a verify begins. -/
  | mainRestore
  /-- WARM_RESET (R184): The warm-reset input is asserted; the main domain resets, a verify in progress restarts with its cause kept, and a POWER notice is offered. -/
  | warmReset
  /-- KEY_STORE_SIDE_CIPHER_STEP (R32): A Key Store side cipher step that is not the last of its operation ends: its result goes to its requester, which presents its next step, and the Core begins the next waiting step by the arbitration of R32. -/
  | keyStoreSideCipherStep
  /-- BATTERY_LOSS (R180): The battery fails while main power is absent, so the battery domain loses its contents and its validity mark, and the next arrival of main power is a first power. -/
  | batteryLoss
  deriving DecidableEq, Repr

end Sys2Proof
end

