-- ==== Sys2Proof/Config.lean ====
section
/-! DEFINITION. What the spec leaves open: free values, opaque constants that no proof can look into. -/

namespace Sys2Proof

/-- The order in which the unit takes things the spec lets it take in either order (R32, R155, R174): at the n-th open
choice of a run, where the next of k things may stand at any of the places 0 to k, it stands at this place modulo k + 1.
Free value, log 4. -/
opaque Config.freeIndex : Nat → Nat → Nat

/-- Whether a time left of so many milliseconds, not a whole number of minutes, is reported rounded up to minutes or down
(R165 does not say). Free value, log 5. -/
opaque Config.roundMinutesUp : Nat → Bool

end Sys2Proof
end

