-- ==== Sys2Proof/Machine/Bytes.lean ====
section
/-! DEFINITION. Byte order and field encodings: multi-byte fields are sent most significant byte first (0.9, 12.1); the value
encodings of R190. -/

namespace Sys2Proof.Machine

/-- The low eight bits of a number. -/
def byteOf (n : Nat) : Byte := BitVec.ofNat 8 n

/-- The number a sequence of bytes spells, most significant byte first. -/
def natOfBytes (bs : Bytes) : Nat := bs.foldl (fun a b => a * 256 + b.toNat) 0

/-- A number in two bytes. -/
def be16 (n : Nat) : Bytes := [byteOf (n / 2 ^ 8), byteOf n]

/-- A number in three bytes. -/
def be24 (n : Nat) : Bytes := [byteOf (n / 2 ^ 16), byteOf (n / 2 ^ 8), byteOf n]

/-- A number in four bytes. -/
def be32 (n : Nat) : Bytes := [byteOf (n / 2 ^ 24), byteOf (n / 2 ^ 16), byteOf (n / 2 ^ 8), byteOf n]

/-- The eight bytes of a tag. -/
def bytesOfTag (t : Tag) : Bytes := be32 (t.toNat / 2 ^ 32) ++ be32 t.toNat

/-- The sixteen bytes of a block. -/
def bytesOfBlock (b : Block) : Bytes :=
  be32 (b.toNat / 2 ^ 96) ++ be32 (b.toNat / 2 ^ 64) ++ be32 (b.toNat / 2 ^ 32) ++ be32 b.toNat

/-- The block of sixteen bytes. -/
def blockOfBytes (bs : Bytes) : Block := BitVec.ofNat 128 (natOfBytes bs)

/-- The word of four bytes. -/
def wordOfBytes (bs : Bytes) : Word := BitVec.ofNat 32 (natOfBytes bs)

/-- The check value of three bytes. -/
def checkOfBytes (bs : Bytes) : Check := BitVec.ofNat 24 (natOfBytes bs)

/-- A flag byte: 00H clear, 01H set (12.2). -/
def flagByte (b : Bool) : Byte := if b then 1 else 0

/-- A field that may be absent: its presence byte, then its value, or its width in 00H bytes (R190). -/
def optionalField (width : Nat) : Option Bytes → Bytes
  | none => 0 :: List.replicate width 0
  | some v => 1 :: v

/-- The byte at a place, 00H beyond the end. -/
def byteAt (bs : Bytes) (i : Nat) : Byte := bs.getD i 0

/-- The bytes from a place on, so many of them. -/
def sliceBytes (bs : Bytes) (start width : Nat) : Bytes := (bs.drop start).take width

/-- A set given as bits, bit n for the member n, in one byte (12.2, R190). -/
def bitByte (bits : List Bool) : Byte := byteOf (bits.foldr (fun b a => 2 * a + b.toNat) 0)

end Sys2Proof.Machine
end

