-- ==== Sys2Proof/Machine/State.lean ====
section
/-! DEFINITION. The state of the unit, block by block (00_scope.md 0.4), as plain data; the faults and refusals; and the state
after first power (R182), which is the machine's reset. Each field cites the rule that gives it. -/

namespace Sys2Proof.Machine

/-- A counter that saturates, with its limit flag (0.12). Its maximum is given where it is incremented. -/
structure Counter where
  value : Nat
  limit : Bool
  deriving DecidableEq, Repr

/-- A counter at 0 with its flag clear. -/
def Counter.zero : Counter := { value := 0, limit := false }

/-! ### Key Store (chapter 1) -/

/-- The five states of a slot (R1). -/
inductive SlotState where
  | empty
  | assembling
  | active
  | retired
  | damaged
  deriving DecidableEq, Repr

/-- The six key classes (R1); `importing` is IMPORT. -/
inductive KeyClass where
  | mgmt
  | custodian
  | importing
  | prep
  | master
  | line
  deriving DecidableEq, Repr

/-- A slot record (R1); an absent field is `none`. -/
structure Slot where
  state : SlotState
  cls : Option KeyClass
  key : Option Block
  check : Option Check
  required : Option Nat
  components : Option (List Nat)
  accumulator : Option Block
  expected : Option Check
  deadline : Option Word
  label : Option Word
  uses : Counter
  ceiling : Nat
  lock : Bool
  deriving DecidableEq, Repr

/-- A slot record in EMPTY, with the lock given: every other field takes its EMPTY value (R1). -/
def Slot.blank (lock : Bool) : Slot :=
  { state := .empty, cls := none, key := none, check := none, required := none, components := none, accumulator := none,
    expected := none, deadline := none, label := none, uses := .zero, ceiling := 0, lock := lock }

/-- The custody states (R4). -/
inductive Custody where
  | factory
  | operational
  | dormant
  | zeroised
  deriving DecidableEq, Repr

/-- A scrub pass in progress: over one erased slot (R18) or over the whole store (R27). -/
inductive Scrub where
  | erase (slot : SlotNo)
  | zeroise
  deriving DecidableEq, Repr

/-- The cause of a slot verify (R24). -/
inductive VerifyCause where
  | restore
  | wake
  deriving DecidableEq, Repr

/-- A slot verify in progress: the slot whose check value is being computed and the slots found DAMAGED so far (R24). -/
structure Verify where
  cause : VerifyCause
  slot : SlotNo
  damaged : Nat
  deriving DecidableEq, Repr

/-- The Key Store (R1, R4, R6, R7, R24, R25). -/
structure KeyStore where
  slots : Vector Slot 64
  custody : Custody
  lastOrder : Word
  suspend : Vector Bool 6
  scrub : Option Scrub
  verify : Option Verify
  /-- a restore's verify waits for the scrub in progress to complete (R6, R183) -/
  verifyWaits : Bool
  /-- which slots have a working copy of their key ready (R25, R26, R30); it changes no result (R20) -/
  working : Vector Bool 64
  deriving DecidableEq, Repr

/-! ### Cipher Core (chapter 2) -/

/-- The two functions of the Cipher Core (R31). -/
inductive CipherFn where
  | enc
  | dec
  deriving DecidableEq, Repr

/-- A cipher step: one function under one key on one block (R31). -/
structure CipherStep where
  fn : CipherFn
  key : Block
  block : Block
  deriving DecidableEq, Repr

/-- The users of the Key Store side of the Core (R32): the store's loading (LOAD CLEAR, LOAD COMPONENT, LOAD WRAPPED KEY), its
slot verify, the Order Unit's tags and the Report Unit's tags. -/
inductive KsUser where
  | load
  | verify
  | order
  | report
  deriving DecidableEq, Repr

/-- A Key Store side step: its user, the step, and, for the unwrap step of a load, the IMPORT slot whose use is counted when the
step is begun (R42). -/
structure KsStep where
  user : KsUser
  step : CipherStep
  counts : Option SlotNo
  deriving DecidableEq, Repr

/-- What the Core is doing. A discarded step runs to its end and its result goes to nobody (R33). -/
inductive CoreWork where
  | idle
  | engine (step : CipherStep) (discarded : Bool)
  | keyStore (step : KsStep) (discarded : Bool)
  deriving DecidableEq, Repr

/-- The Cipher Core: the step in progress, the Key Store side's waiting steps in the order presented, and the engine's waiting
step (R32). -/
structure CipherCore where
  work : CoreWork
  queue : List KsStep
  engineWaits : Option CipherStep
  deriving DecidableEq, Repr

/-- A chain tag being computed: its key, the chain value so far, and the blocks still to be taken, the first of them in the step
presented (R34). -/
structure TagJob where
  key : Block
  chain : Block
  blocks : List Block
  deriving DecidableEq, Repr

/-! ### Run Controller (chapter 3) -/

/-- Run states (R43). -/
inductive RunState where
  | defined
  | live
  | held
  | closing
  | closed
  deriving DecidableEq, Repr

/-- The set of hold causes (R43). -/
structure HoldCauses where
  order : Bool
  overspoil : Bool
  key : Bool
  deriving DecidableEq, Repr

/-- Position states (R55); `opened` is OPEN. -/
inductive PosState where
  | opened
  | staged
  | out
  | done
  | spoiled
  | voided
  deriving DecidableEq, Repr

/-- The state a STAGED position came from (R55). -/
inductive PriorState where
  | opened
  | spoiled
  deriving DecidableEq, Repr

/-- A position record (R55). -/
structure Position where
  state : PosState
  prior : Option PriorState
  attempt : Nat
  line : Option LineNo
  dispatched : Option Word
  lateEligible : Bool
  lapsedLine : Option LineNo
  deriving DecidableEq, Repr

/-- The form in which a position enters the window (R55). -/
def Position.fresh : Position :=
  { state := .opened, prior := none, attempt := 0, line := none, dispatched := none, lateEligible := false, lapsedLine := none }

/-- A run record (R43). A ring entry of the window whose offset would be Q or more is `none` (R54). -/
structure Run where
  number : Word
  state : RunState
  holds : HoldCauses
  master : SlotNo
  prep : Option SlotNo
  recipe : RecipeNo
  group : GroupNo
  first : Word
  quantity : Nat
  spoilRate : Nat
  allowance : Nat
  timeout : Nat
  postscaler : Nat
  progress : Nat
  low : Nat
  window : Vector (Option Position) 64
  issues : Nat
  reissues : Nat
  done : Nat
  spoiled : Nat
  lapsed : Nat
  voided : Nat
  duplicates : Counter
  late : Counter
  unissued : Option Nat
  deriving DecidableEq, Repr

/-- A tagged field of a record or of a card frame: tag and value (12.1). -/
structure Field where
  tag : Byte
  value : Bytes
  deriving DecidableEq, Repr

/-- An admitted record: its run, its card and its fields (R60). -/
structure StagedRecord where
  run : Word
  seq : Word
  fields : List Field
  deriving DecidableEq, Repr

/-- The Run Controller: the Run Table and the Staging Queue, oldest first (R43, R60). -/
structure RunController where
  table : List Run
  staging : List StagedRecord
  deriving DecidableEq, Repr

/-! ### Recipes and the Transform Engine (chapter 4) -/

/-- Action kinds (R78). -/
inductive ActionKind where
  | copy
  | stamp
  | derive
  | rewrap
  | outTag
  deriving DecidableEq, Repr

/-- An action record (R78). -/
structure Action where
  kind : ActionKind
  source : Nat
  result : Nat
  repeats : Nat
  variant : BitVec 16
  optional : Bool
  deriving DecidableEq, Repr

/-- One instance of an action (R79): the action's number from 1, and the source and result tags of this instance. -/
structure ActionInst where
  action : Nat
  kind : ActionKind
  source : Byte
  result : Byte
  variant : BitVec 16
  optional : Bool
  deriving DecidableEq, Repr

/-- The cipher step the engine waits for, with the values it may hold between steps (R89, R39, R40, R41). -/
inductive Waiting where
  /-- stage 1 of R39: E(MK, Dblk) -/
  | deriveKey (dblk : Block)
  /-- stage 2 of R39: E(LK, K) -/
  | deriveWrap (cardKey : Block)
  /-- stage 3 of R39: E(K, zero block) -/
  | deriveCheck (wrapped : Block)
  /-- stage 1 of R40: D(PK, c); the blocks already written and the blocks after this one -/
  | unwrap (written : Bytes) (rest : List Block)
  /-- stage 2 of R40: E(LK, p) -/
  | wrap (written : Bytes) (rest : List Block)
  /-- the chain tag of R41 -/
  | outTag (job : TagJob)
  deriving DecidableEq, Repr

/-- The record in a WORKING engine (R89). `todo` is the place in the walk: the instance in progress and those after it. -/
structure Work where
  run : Word
  seq : Word
  fields : List Field
  line : LineNo
  keySlot : SlotNo
  attempt : Nat
  recipe : RecipeNo
  todo : List ActionInst
  output : List Field
  size : Nat
  waiting : Waiting
  deriving DecidableEq, Repr

/-! ### Line Dispatcher (chapter 5) -/

/-- The set of fault causes of a line (R100). -/
structure FaultCauses where
  link : Bool
  lapses : Bool
  deriving DecidableEq, Repr

/-- A card frame in a transmit queue, with the card it belongs to (R115). -/
structure CardFrame where
  run : Word
  seq : Word
  frame : Bytes
  deriving DecidableEq, Repr

/-- The three link error flags of a line or of the onward port (R100, R130). -/
structure PortFlags where
  frameCheck : Bool
  length : Bool
  kind : Bool
  deriving DecidableEq, Repr

/-- No flag set. -/
def PortFlags.clear : PortFlags := { frameCheck := false, length := false, kind := false }

/-- A line record with its port (R100, R111, R115). -/
structure Line where
  keySlot : Option SlotNo
  limit : Nat
  occupied : Nat
  barred : Bool
  faults : FaultCauses
  consecutive : Nat
  lapses : Counter
  strays : Counter
  rejects : Counter
  late : Counter
  flags : PortFlags
  transmit : List CardFrame
  /-- the sending of the frame at the head has begun (R116) -/
  begun : Bool
  /-- the frame at the head is being sent now (R115) -/
  sending : Bool
  /-- the level of the port's link (R111) -/
  linkUp : Bool
  deriving DecidableEq, Repr

/-- A line record after any reset (R121), with the level of the port's link. -/
def Line.initial (linkUp : Bool) : Line :=
  { keySlot := none, limit := 2, occupied := 0, barred := false, faults := { link := !linkUp, lapses := false }, consecutive := 0,
    lapses := .zero, strays := .zero, rejects := .zero, late := .zero, flags := .clear, transmit := [], begun := false,
    sending := false, linkUp := linkUp }

/-- The Line Dispatcher: the Line Table, the four groups (bit n for line Ln) and the production switch (R100, R105, R113). -/
structure Dispatcher where
  lines : Vector Line 8
  groups : Vector (BitVec 8) 4
  production : Bool
  deriving DecidableEq, Repr

/-! ### Link Controller (chapter 6) -/

/-- The sources of the upstream transmit rotation (R131). -/
inductive Source where
  | answer
  | notice
  | relay
  deriving DecidableEq, Repr

/-- The six link error flags of the upstream port (R133). -/
structure UpFlags where
  frameCheck : Bool
  length : Bool
  kind : Bool
  tag : Bool
  number : Bool
  unit : Bool
  deriving DecidableEq, Repr

/-- No flag set. -/
def UpFlags.clear : UpFlags :=
  { frameCheck := false, length := false, kind := false, tag := false, number := false, unit := false }

/-- The Link Controller (R122, R128 to R136). Frames are whole frames, header to frame check. -/
structure LinkController where
  address : Nat
  chainEnd : Bool
  upLink : Bool
  onLink : Bool
  upFlags : UpFlags
  onFlags : PortFlags
  onwardQueue : List Bytes
  relayQueue : List Bytes
  upTx : Option Bytes
  onTx : Option Bytes
  served : Source
  deriving DecidableEq, Repr

/-! ### Order Unit (chapter 7) -/

/-- A grant in the gate (R144). -/
structure Grant where
  custodian : Nat
  target : Word
  accepted : Word
  deriving DecidableEq, Repr

/-- The grant gate: 0 to 2 grants in the order accepted, and the lapse deadline (R144). -/
structure Gate where
  grants : List Grant
  deadline : Option Word
  deriving DecidableEq, Repr

/-- What a load in hand is for (R12, R15); `last` says that the component completes its assembly, as the order's decision finds it
(R42). -/
inductive LoadKind where
  | component (slot : SlotNo) (custodian : Nat) (last : Bool)
  | whole (slot : SlotNo) (cls : KeyClass) (check : Check) (ceiling : Nat) (label : Word)
  deriving DecidableEq, Repr

/-- The cipher step a load in hand waits for (R42). -/
inductive LoadStage where
  | unwrap (unwrapSlot : SlotNo) (key : Block) (wrapped : Block)
  | check (clear : Block)
  deriving DecidableEq, Repr

/-- A LOAD COMPONENT or LOAD WRAPPED KEY in hand; `zeroised` once a zeroisation has come between (R42). -/
structure Load where
  kind : LoadKind
  stage : LoadStage
  zeroised : Bool
  deriving DecidableEq, Repr

/-- How far the handling of the order in hand has come (R137 to R140, R42, R151). -/
inductive Handling where
  /-- it awaits its decision, no tag is compared, and every check is made at it: a broadcast (R150), or an order overtaken by a
  zeroisation (R140) -/
  | untagged
  /-- it awaits its decision in FACTORY or ZEROISED, steps 1 and 2 of R140 and the custody check passed when it was handed over
  (R141) -/
  | screened
  /-- it awaits its decision and fails authentication without a comparison (R138) -/
  | unmatched
  /-- its tag is being computed under the key of this slot (R138) -/
  | comparing (slot : SlotNo) (job : TagJob)
  /-- LOAD CLEAR in FACTORY: the check value of the key it carries is being computed (R9, R35) -/
  | checking (key : Block)
  /-- it was decided, and the cipher steps of its load run (R42) -/
  | loading (load : Load)
  /-- its answer's tag is being computed (R151) -/
  | answering (message : Bytes) (job : TagJob)
  /-- its answer stands in the answer slot (R151) -/
  | answered
  deriving DecidableEq, Repr

/-- The order in hand (R137). -/
structure OrderInHand where
  header : Bytes
  body : Bytes
  broadcast : Bool
  handling : Handling
  deriving DecidableEq, Repr

/-- The Order Unit (R137). -/
structure OrderUnit where
  hand : Option OrderInHand
  answer : Option Bytes
  gate : Gate
  deriving DecidableEq, Repr

/-! ### Tamper Monitor (chapter 8) -/

/-- The level a sensor's polarity names as active (R154). -/
inductive Polarity where
  | activeHigh
  | activeLow
  deriving DecidableEq, Repr

/-- Sensor modes (R154). -/
inductive SensorMode where
  | latched
  | transient
  deriving DecidableEq, Repr

/-- What a trip does to the Key Store (R154). -/
inductive TamperAction where
  | zeroise
  | suspend
  deriving DecidableEq, Repr

/-- Sensor statuses (R154). -/
inductive SensorStatus where
  | idle
  | qualifying
  | tripped
  | latched
  deriving DecidableEq, Repr

/-- A sensor record (R154) with its qualification timer, the ticks left (R155), and the level of its input, true for high. -/
structure Sensor where
  enable : Bool
  polarity : Polarity
  mode : SensorMode
  action : TamperAction
  qualification : Nat
  alarmMasked : Bool
  status : SensorStatus
  timer : Option Nat
  input : Bool
  deriving DecidableEq, Repr

/-- A sensor record after first power (R169), with the level of its input. -/
def Sensor.initial (input : Bool) : Sensor :=
  { enable := false, polarity := .activeHigh, mode := .latched, action := .suspend, qualification := 0, alarmMasked := false,
    status := .idle, timer := none, input := input }

/-- What a tamper record entry names: a sensor, or ORDER for an ordered zeroisation (R163). -/
inductive TamperSource where
  | sensor (n : SensorNo)
  | order
  deriving DecidableEq, Repr

/-- An entry of the tamper record (R163). -/
structure TamperEntry where
  source : TamperSource
  seconds : Nat
  millis : Option (BitVec 16)
  action : TamperAction
  before : Custody
  deriving DecidableEq, Repr

/-- The Tamper Monitor (R154, R161, R163, R167). An open window holds the milliseconds left. -/
structure TamperMonitor where
  sensors : Vector Sensor 6
  window : Option Nat
  record : List TamperEntry
  overflow : Counter
  events : Counter
  batteryTrips : Counter
  deriving DecidableEq, Repr

/-! ### Report Unit and Time Base (chapter 9) -/

/-- The tag of a notice: computed, or being computed (R174). -/
inductive NoticeTag where
  | ready (tag : Tag)
  | computing (job : TagJob)
  deriving DecidableEq, Repr

/-- A notice in the Notice Queue: header and body without the tag, and the tag (R172, R174). -/
structure Notice where
  message : Bytes
  tag : NoticeTag
  deriving DecidableEq, Repr

/-- The Report Unit (R173, R174, R175, R178). -/
structure ReportUnit where
  notices : List Notice
  noticeMask : BitVec 16
  alarmMask : BitVec 16
  lost : Counter
  deriving DecidableEq, Repr

/-- The Time Base: the millisecond counter (R170), the seconds clock and its count of ticks (R171). -/
structure TimeBase where
  millis : Word
  seconds : Counter
  ticks : Nat
  deriving DecidableEq, Repr

/-! ### Power Controller (chapter 10) -/

/-- The supply state (R181). -/
inductive Supply where
  | main
  | battery
  deriving DecidableEq, Repr

/-- A running idle timer: minutes remaining and the minute deadline (R187). -/
structure IdleTimer where
  minutes : Nat
  deadline : Word
  deriving DecidableEq, Repr

/-- The Power Controller (R180, R181, R186, R187). `settling` is the inhibit's deadline, `idle` is `none` while STOPPED. -/
structure PowerController where
  supply : Supply
  valid : Bool
  lossTime : Option Nat
  batteryZeroised : Bool
  settling : Option Word
  idleLimit : Nat
  idle : Option IdleTimer
  deriving DecidableEq, Repr

/-! ### The unit -/

/-- The state of the unit: its twelve blocks (0.4) and the model's own two fields, the queue of waiting commands and the count
of open choices taken (log 4). -/
structure State where
  store : KeyStore
  core : CipherCore
  runs : RunController
  recipes : Vector (Option (List Action)) 32
  engine : Option Work
  dispatch : Dispatcher
  link : LinkController
  order : OrderUnit
  tamper : TamperMonitor
  report : ReportUnit
  time : TimeBase
  power : PowerController
  free : Nat
  pending : List Instr
  deriving DecidableEq, Repr

/-- No command ends in a fault: the spec gives every command its effect. -/
inductive Fault where
  deriving DecidableEq, Repr

/-- Why a command has no meaning. -/
inductive Refusal where
  /-- raised by an arm of `exec` whose command has no meaning yet; safe: nothing is claimed of it -/
  | notModelled (mnemonic : String)
  deriving DecidableEq, Repr

/-! ### Reset -/

/-- The Key Store after first power (R30). -/
def KeyStore.initial : KeyStore :=
  { slots := Vector.replicate 64 (Slot.blank false), custody := .factory, lastOrder := 0, suspend := Vector.replicate 6 false,
    scrub := none, verify := none, verifyWaits := false, working := Vector.replicate 64 false }

/-- The Cipher Core after any reset (R33). -/
def CipherCore.initial : CipherCore := { work := .idle, queue := [], engineWaits := none }

/-- The Run Controller after any reset (R44, R60). -/
def RunController.initial : RunController := { table := [], staging := [] }

/-- The Recipe Table after any reset (R78). -/
def Recipes.initial : Vector (Option (List Action)) 32 := Vector.replicate 32 none

/-- The Line Dispatcher after any reset, with the levels of the links (R121). -/
def Dispatcher.initial (links : Vector Bool 8) : Dispatcher :=
  { lines := links.map Line.initial, groups := Vector.replicate 4 0, production := false }

/-- The Link Controller after first power, with the levels of the links (R135, R136). -/
def LinkController.initial (upLink onLink : Bool) : LinkController :=
  { address := 0, chainEnd := true, upLink := upLink, onLink := onLink, upFlags := .clear, onFlags := .clear, onwardQueue := [],
    relayQueue := [], upTx := none, onTx := none, served := .relay }

/-- The Order Unit after any reset (R137, R144). -/
def OrderUnit.initial : OrderUnit := { hand := none, answer := none, gate := { grants := [], deadline := none } }

/-- The Tamper Monitor after first power, with the levels of the inputs (R169). -/
def TamperMonitor.initial (inputs : Vector Bool 6) : TamperMonitor :=
  { sensors := inputs.map Sensor.initial, window := none, record := [], overflow := .zero, events := .zero, batteryTrips := .zero }

/-- The Report Unit after any reset, before the POWER notice is offered (R173, R174, R175, R178): all nine kinds enabled; in the
alarm mask, 1 = masked, the zeros are LINE FAULT, OVERSPOIL, KEY DAMAGED, STORE SUSPENDED and TAMPER (R190's places). -/
def ReportUnit.initial : ReportUnit := { notices := [], noticeMask := 0x01FF, alarmMask := 0x657F, lost := .zero }

/-- The Time Base after first power (R170, R171). -/
def TimeBase.initial : TimeBase := { millis := 0, seconds := .zero, ticks := 0 }

/-- The Power Controller after first power (R180, R182, R186, R187). -/
def PowerController.initial : PowerController :=
  { supply := .main, valid := true, lossTime := none, batteryZeroised := false, settling := none, idleLimit := 60, idle := none }

/-- The notice that first power puts into the Notice Queue (R182, R185): header (NOTICE, unit 0, body length 28, number 0); kind
POWER, variant FIRST POWER; cause, FACTORY, seconds 0, loss time absent, battery trips 0 and clear, no battery zeroisation; the
summary COMMISSIONING; the tag, not in the message, is 00H bytes. -/
def Notice.firstPower : Notice :=
  { message := [0x04, 0x00, 0x00, 0x1C, 0x00, 0x00, 0x00, 0x00,
      0x09, 0x01,
      0x01, 0x00, 0x00, 0x00, 0x00, 0x00, 0x00, 0x00, 0x00, 0x00, 0x00, 0x01, 0x00, 0x00, 0x01, 0x00,
      0x00, 0x01],
    tag := .ready 0 }

/-- The unit right after first power (R182). The links stand up and the sensor inputs low (pins; log 3). -/
def State.reset : State :=
  { store := .initial, core := .initial, runs := .initial, recipes := Recipes.initial, engine := none,
    dispatch := .initial (Vector.replicate 8 true), link := .initial true true, order := .initial,
    tamper := .initial (Vector.replicate 6 false), report := { ReportUnit.initial with notices := [Notice.firstPower] },
    time := .initial, power := .initial, free := 0, pending := [] }

end Sys2Proof.Machine
end

