-- ==== Sys2Proof/Machine/Codes.lean ====
section
/-! DEFINITION. The byte codes of 12.1 and 12.4: results, reasons, notice kinds, states. -/

namespace Sys2Proof.Machine

/-- Order results (R152). -/
inductive OrderResult where
  | done
  | started
  | clamped
  | badTag
  | staleNumber
  | range
  | notPermitted
  | gate
  | busy
  | settling
  | noSuch
  | inUse
  | checkMismatch
  | sameCustodian
  | locked
  | exists
  | dormant
  | suspended
  deriving DecidableEq, Repr

/-- The code of a result (12.4). -/
def OrderResult.code : OrderResult → Byte
  | .done => 0x00
  | .started => 0x01
  | .clamped => 0x02
  | .badTag => 0x10
  | .staleNumber => 0x11
  | .range => 0x12
  | .notPermitted => 0x13
  | .gate => 0x14
  | .busy => 0x15
  | .settling => 0x16
  | .noSuch => 0x17
  | .inUse => 0x18
  | .checkMismatch => 0x19
  | .sameCustodian => 0x1A
  | .locked => 0x1B
  | .exists => 0x1C
  | .dormant => 0x1D
  | .suspended => 0x1E

/-- Notice kinds (9.2). -/
inductive NoticeKind where
  | progress
  | refusal
  | failure
  | card
  | run
  | line
  | key
  | tamper
  | power
  deriving DecidableEq, Repr

/-- The code of a notice kind (12.4). -/
def NoticeKind.code : NoticeKind → Nat
  | .progress => 1
  | .refusal => 2
  | .failure => 3
  | .card => 4
  | .run => 5
  | .line => 6
  | .key => 7
  | .tamper => 8
  | .power => 9

/-- Refusal reasons of admission (R57). -/
inductive RefusalReason where
  | unknownRun
  | runNotLive
  | outOfRun
  | ahead
  | settled
  | duplicate
  | voided
  | stagingFull
  | storeUnavailable
  | malformed
  deriving DecidableEq, Repr

/-- The code of a refusal reason (12.4). -/
def RefusalReason.code : RefusalReason → Byte
  | .unknownRun => 0x01
  | .runNotLive => 0x02
  | .outOfRun => 0x03
  | .ahead => 0x04
  | .settled => 0x05
  | .duplicate => 0x06
  | .voided => 0x07
  | .stagingFull => 0x08
  | .storeUnavailable => 0x09
  | .malformed => 0x0A

/-- Failure reasons of a transform (R94). -/
inductive FailReason where
  | missingField
  | badIdentity
  | badLength
  | keyUnavailable
  | keySpent
  | outputOversize
  | aborted
  deriving DecidableEq, Repr

/-- The code of a failure reason (12.4). -/
def FailReason.code : FailReason → Byte
  | .missingField => 0x01
  | .badIdentity => 0x02
  | .badLength => 0x03
  | .keyUnavailable => 0x04
  | .keySpent => 0x05
  | .outputOversize => 0x06
  | .aborted => 0x07

/-- CARD notice variants (12.4). -/
inductive CardVariant where
  | voided
  | lapsed
  | late
  | stray
  deriving DecidableEq, Repr

/-- The code of a CARD variant (12.4). -/
def CardVariant.code : CardVariant → Byte
  | .voided => 0x01
  | .lapsed => 0x02
  | .late => 0x03
  | .stray => 0x04

/-- RUN notice variants (12.4). -/
inductive RunOutcome where
  | completed
  | closed
  deriving DecidableEq, Repr

/-- The code of a RUN variant (12.4). -/
def RunOutcome.code : RunOutcome → Byte
  | .completed => 0x01
  | .closed => 0x02

/-- KEY notice variants (12.4). -/
inductive KeyVariant where
  | active
  | assemblyLapsed
  | erased
  | spent
  | damaged
  | verified
  | dormant
  | zeroised
  deriving DecidableEq, Repr

/-- The code of a KEY variant (12.4). -/
def KeyVariant.code : KeyVariant → Byte
  | .active => 0x01
  | .assemblyLapsed => 0x02
  | .erased => 0x03
  | .spent => 0x04
  | .damaged => 0x05
  | .verified => 0x06
  | .dormant => 0x07
  | .zeroised => 0x08

/-- POWER notice causes (R185). -/
inductive PowerCause where
  | firstPower
  | mainRestore
  | warmReset
  deriving DecidableEq, Repr

/-- The code of a POWER cause (12.4). -/
def PowerCause.code : PowerCause → Byte
  | .firstPower => 0x01
  | .mainRestore => 0x02
  | .warmReset => 0x03

/-- Outcome results (R117). -/
inductive CardResult where
  | done
  | spoiled
  | rejected
  deriving DecidableEq, Repr

/-- The code of an outcome result (R189). -/
def CardResult.code : CardResult → Byte
  | .done => 0x01
  | .spoiled => 0x02
  | .rejected => 0x03

/-- The outcome result a byte codes (R189). -/
def cardResultOf (b : Byte) : Option CardResult :=
  if b = 0x01 then some .done else if b = 0x02 then some .spoiled else if b = 0x03 then some .rejected else none

/-- The code of a slot state (12.4). -/
def SlotState.code : SlotState → Byte
  | .empty => 0x00
  | .assembling => 0x01
  | .active => 0x02
  | .retired => 0x03
  | .damaged => 0x04

/-- The code of a key class (12.2). -/
def KeyClass.code : KeyClass → Byte
  | .mgmt => 0x00
  | .custodian => 0x01
  | .importing => 0x02
  | .prep => 0x03
  | .master => 0x04
  | .line => 0x05

/-- The key class a byte codes (12.2). -/
def keyClassOf (b : Byte) : Option KeyClass :=
  if b = 0x00 then some .mgmt else if b = 0x01 then some .custodian else if b = 0x02 then some .importing
  else if b = 0x03 then some .prep else if b = 0x04 then some .master else if b = 0x05 then some .line else none

/-- The code of a custody state (12.4). -/
def Custody.code : Custody → Byte
  | .factory => 0x00
  | .operational => 0x01
  | .dormant => 0x02
  | .zeroised => 0x03

/-- The code of a run state (12.4). -/
def RunState.code : RunState → Byte
  | .defined => 0x00
  | .live => 0x01
  | .held => 0x02
  | .closing => 0x03
  | .closed => 0x04

/-- The byte of a hold-cause set (12.4): bit 0 ORDER, bit 1 OVERSPOIL, bit 2 KEY. -/
def HoldCauses.byte (h : HoldCauses) : Byte := bitByte [h.order, h.overspoil, h.key]

/-- The code of a position state (12.4). -/
def PosState.code : PosState → Byte
  | .opened => 0x00
  | .staged => 0x01
  | .out => 0x02
  | .done => 0x03
  | .spoiled => 0x04
  | .voided => 0x05

/-- The reported states of a line (R101). -/
inductive LineState where
  | off
  | barred
  | faulted
  | ready
  deriving DecidableEq, Repr

/-- The code of a reported line state (12.4). -/
def LineState.code : LineState → Byte
  | .off => 0x00
  | .barred => 0x01
  | .faulted => 0x02
  | .ready => 0x03

/-- The byte of a fault-cause set (12.4): bit 0 LINK, bit 1 LAPSES. -/
def FaultCauses.byte (f : FaultCauses) : Byte := bitByte [f.link, f.lapses]

/-- The code of a sensor status (12.4). -/
def SensorStatus.code : SensorStatus → Byte
  | .idle => 0x00
  | .qualifying => 0x01
  | .tripped => 0x02
  | .latched => 0x03

/-- The code of a polarity (12.2). -/
def Polarity.code : Polarity → Byte
  | .activeHigh => 0x00
  | .activeLow => 0x01

/-- The code of a sensor mode (12.2). -/
def SensorMode.code : SensorMode → Byte
  | .latched => 0x00
  | .transient => 0x01

/-- The code of a tamper action (12.2). -/
def TamperAction.code : TamperAction → Byte
  | .zeroise => 0x00
  | .suspend => 0x01

/-- The code of what a tamper record entry names: 00H to 05H for S0 to S5, 0FH for ORDER (12.4). -/
def TamperSource.code : TamperSource → Byte
  | .sensor n => byteOf n.val
  | .order => 0x0F

/-- The code of a verify cause (12.4). -/
def VerifyCause.code : VerifyCause → Byte
  | .restore => 0x01
  | .wake => 0x02

/-- The code of an action kind (12.2). -/
def ActionKind.code : ActionKind → Byte
  | .copy => 0x01
  | .stamp => 0x02
  | .derive => 0x03
  | .rewrap => 0x04
  | .outTag => 0x05

/-- The action kind a byte codes (12.2). -/
def actionKindOf (b : Byte) : Option ActionKind :=
  if b = 0x01 then some .copy else if b = 0x02 then some .stamp else if b = 0x03 then some .derive
  else if b = 0x04 then some .rewrap else if b = 0x05 then some .outTag else none

/-- The frame kinds (12.1). -/
def kindRecord : Byte := 0x01
/-- ORDER (12.1). -/
def kindOrder : Byte := 0x02
/-- ANSWER (12.1). -/
def kindAnswer : Byte := 0x03
/-- NOTICE (12.1). -/
def kindNotice : Byte := 0x04
/-- CARD (12.1). -/
def kindCard : Byte := 0x05
/-- OUTCOME (12.1). -/
def kindOutcome : Byte := 0x06

end Sys2Proof.Machine
end

