-- ==== Sys2Proof/Machine/Flags.lean ====
section
/-! DEFINITION. Every level and condition computed from the state: usability of a slot (R3), the reported state of a line (R101),
the store's conditions (R5, R6, R7), the sixteen conditions of the status summary (R176, R190), the alarm output (R179), the
lock-release output (R161) and the readiness of the receivers (R128, R130). -/

namespace Sys2Proof.Machine

/-! ### Accessors -/

/-- The record of a slot (R1). -/
def State.slot (s : State) (n : SlotNo) : Slot := s.store.slots[n.val]

/-- The record of a line (R100). -/
def State.line (s : State) (l : LineNo) : Line := s.dispatch.lines[l.val]

/-- The record of a sensor (R154). -/
def State.sensor (s : State) (i : SensorNo) : Sensor := s.tamper.sensors[i.val]

/-- The lines of a group (R105). -/
def State.group (s : State) (g : GroupNo) : BitVec 8 := s.dispatch.groups[g.val]

/-- A recipe, when its entry is defined (R78). -/
def State.recipe (s : State) (r : RecipeNo) : Option (List Action) := s.recipes[r.val]

/-- The run of a run number, `none` when it is unknown (R44). -/
def State.run (s : State) (n : Word) : Option Run := s.runs.table.find? fun r => r.number == n

/-- Main power is up (R181). -/
def State.mainUp (s : State) : Bool := decide (s.power.supply = .main)

/-! ### Keys -/

/-- A slot's counter stands below its ceiling, or it has none (R3). -/
def Slot.underCeiling (k : Slot) : Bool := decide (k.ceiling = 0) || decide (k.uses.value < k.ceiling)

/-- A slot is usable while it is ACTIVE and under its ceiling (R3). -/
def Slot.usable (k : Slot) : Bool := decide (k.state = .active) && k.underCeiling

/-- A slot with a key at its nonzero ceiling (R8, KEY SPENT). -/
def Slot.spent (k : Slot) : Bool := decide (k.state = .active) && decide (k.ceiling ≠ 0) && decide (k.uses.value = k.ceiling)

/-- The key of a slot while it is ACTIVE (R3). -/
def State.activeKey (s : State) (n : SlotNo) : Option Block :=
  if (s.slot n).state = .active then (s.slot n).key else none

/-- The store is SUSPENDED while its suspend set is not empty (R7). -/
def State.suspended (s : State) : Bool := s.store.suspend.toList.any id

/-- The store is BUSY from the start of a scrub or a verify to its end, and while a verify waits for a scrub (R6). -/
def State.busy (s : State) : Bool := s.store.scrub.isSome || s.store.verify.isSome || s.store.verifyWaits

/-- The store is SETTLING while the settling inhibit runs (R8, R186). -/
def State.isSettling (s : State) : Bool := s.power.settling.isSome

/-! ### Lines -/

/-- The slot a line names is usable (R101 step 1). -/
def State.lineKeyUsable (s : State) (l : LineNo) : Bool :=
  match (s.line l).keySlot with
  | none => false
  | some n => (s.slot n).usable

/-- The reported state of a line (R101). -/
def State.reported (s : State) (l : LineNo) : LineState :=
  if !s.lineKeyUsable l then .off
  else if (s.line l).barred then .barred
  else if (s.line l).faults.link || (s.line l).faults.lapses then .faulted
  else .ready

/-- A line is dispatchable (R114). -/
def State.dispatchable (s : State) (l : LineNo) : Bool :=
  s.dispatch.production && decide (s.reported l = .ready) && decide ((s.line l).occupied < (s.line l).limit)

/-- A line is a member of a group (R105). -/
def State.inGroup (s : State) (g : GroupNo) (l : LineNo) : Bool := (s.group g).getLsbD l.val

/-! ### Runs -/

/-- A recipe contains a REWRAP action. -/
def hasRewrap (actions : List Action) : Bool := actions.any fun a => decide (a.kind = .rewrap)

/-- A run's recipe contains REWRAP. -/
def State.runRewraps (s : State) (r : Run) : Bool :=
  match s.recipe r.recipe with
  | none => false
  | some actions => hasRewrap actions

/-- The keys of a run are usable: its master slot is, and so is its prep slot if its recipe contains REWRAP (R3). -/
def State.keysUsable (s : State) (r : Run) : Bool :=
  (s.slot r.master).usable &&
    (!s.runRewraps r ||
      match r.prep with
      | none => false
      | some p => (s.slot p).usable)

/-- The hold-cause set is empty. -/
def HoldCauses.isEmpty (h : HoldCauses) : Bool := !h.order && !h.overspoil && !h.key

/-! ### Sensors -/

/-- A sensor's input stands at the level its polarity names (R154). -/
def Sensor.active (x : Sensor) : Bool :=
  match x.polarity with
  | .activeHigh => x.input
  | .activeLow => !x.input

/-- A sensor is held off: S0 while the maintenance window is open (R161). -/
def State.heldOff (s : State) (i : SensorNo) : Bool := decide (i = 0) && s.tamper.window.isSome

/-- The lock-release output is asserted exactly while the maintenance window is open (R161). -/
def State.lockRelease (s : State) : Bool := s.tamper.window.isSome

/-! ### Flags of the ports -/

/-- Some link error flag of a line or of the onward port is set. -/
def PortFlags.any (f : PortFlags) : Bool := f.frameCheck || f.length || f.kind

/-- Some link error flag of the upstream port is set. -/
def UpFlags.any (f : UpFlags) : Bool := f.frameCheck || f.length || f.kind || f.tag || f.number || f.unit

/-- The upstream receiver signals ready (R128). -/
def State.upstreamReady (s : State) : Bool :=
  s.mainUp && decide (s.link.onwardQueue.length < 8) && s.order.hand.isNone

/-- The onward receiver signals ready (R130). -/
def State.onwardReady (s : State) : Bool := s.mainUp && decide (s.link.relayQueue.length < 8)

/-! ### The status summary -/

/-- The sixteen conditions (R176), in the order of R190: bit 7 to bit 0 of the first byte, then of the second. -/
inductive Condition where
  | lineFault
  | lineLapse
  | runHeld
  | overspoil
  | keyDamaged
  | keySpent
  | storeSuspended
  | dormant
  | tamper
  | cabinetOpen
  | settling
  | storeBusy
  | noticesLost
  | linkError
  | countLimit
  | commissioning
  deriving DecidableEq, Repr

/-- The conditions in the order of R190. -/
def Condition.all : List Condition :=
  [.lineFault, .lineLapse, .runHeld, .overspoil, .keyDamaged, .keySpent, .storeSuspended, .dormant, .tamper, .cabinetOpen,
    .settling, .storeBusy, .noticesLost, .linkError, .countLimit, .commissioning]

/-- A limit flag of a line's counters is set (R120). -/
def Line.limitFlag (l : Line) : Bool := l.lapses.limit || l.strays.limit || l.rejects.limit || l.late.limit

/-- COUNT LIMIT: the limit flags R176 lists. -/
def State.countLimit (s : State) : Bool :=
  s.store.slots.toList.any (fun k => k.uses.limit) ||
    s.runs.table.any (fun r => r.duplicates.limit || r.late.limit) ||
    s.dispatch.lines.toList.any Line.limitFlag ||
    s.tamper.overflow.limit || s.tamper.events.limit || s.report.lost.limit || s.time.seconds.limit

/-- A condition holds (R8, R76, R120, R133, R168, R175, R176). -/
def State.holds (s : State) : Condition → Bool
  | .lineFault => (List.finRange 8).any fun l => decide (s.reported l = .faulted)
  | .lineLapse => s.dispatch.lines.toList.any fun l => decide (l.consecutive ≠ 0)
  | .runHeld => s.runs.table.any fun r => decide (r.state = .held)
  | .overspoil => s.runs.table.any fun r => decide (r.state ≠ .closed) && r.holds.overspoil
  | .keyDamaged => s.store.slots.toList.any fun k => decide (k.state = .damaged)
  | .keySpent => s.store.slots.toList.any Slot.spent
  | .storeSuspended => s.suspended
  | .dormant => decide (s.store.custody = .dormant)
  | .tamper =>
    !s.tamper.record.isEmpty || decide (s.tamper.overflow.value ≠ 0) ||
      s.tamper.sensors.toList.any fun x => !x.alarmMasked && decide (x.status = .qualifying)
  | .cabinetOpen => s.tamper.window.isSome || ((s.sensor 0).enable && (s.sensor 0).active)
  | .settling => s.isSettling
  | .storeBusy => s.busy
  | .noticesLost => decide (s.report.lost.value ≠ 0)
  | .linkError => s.link.upFlags.any || s.link.onFlags.any || s.dispatch.lines.toList.any fun l => l.flags.any
  | .countLimit => s.countLimit
  | .commissioning => decide (s.store.custody = .factory)

/-- Sixteen bits, the first of the list the most significant. -/
def bits16 (bs : List Bool) : BitVec 16 := BitVec.ofNat 16 (bs.foldl (fun a b => 2 * a + b.toNat) 0)

/-- The status summary (R176, R190). -/
def State.summary (s : State) : BitVec 16 := bits16 (Condition.all.map s.holds)

/-- The alarm output (R179): asserted while main power is up and a condition that is not masked holds. -/
def State.alarmOutput (s : State) : Bool := s.mainUp && decide (s.summary &&& ~~~s.report.alarmMask ≠ 0)

end Sys2Proof.Machine
end

