-- ==== Sys2Proof/Machine/Aes.lean ====
section
/-! DEFINITION. The functions E and D of the Cipher Core (R31): the Advanced Encryption Standard with a 128-bit key. R31 says that
the published standard fixes the value of every step; the tables and the round structure are that standard's (FIPS 197; log 16). -/

namespace Sys2Proof.Machine

/-- The substitution table: the value for byte b is byte number b, least significant first. -/
def sboxTable : Nat :=
  (0xc072a49cafa2d4adf04759fa7dc982ca76abd7fe2b670130c56f6bf27b777c63 <<< 0) |||
  (0x75b227ebe28012079a059618c323c7041531d871f1e5a534ccf73f362693fdb7 <<< 256) |||
  (0xcf584c4a39becb6a5bb1fc20ed00d153842fe329b3d63b52a05a6e1b1a2c8309 <<< 512) |||
  (0xd2f3ff1021dab6bcf5389d928f40a351a89f3c507f02f94585334d43fbaaefd0 <<< 768) |||
  (0xdb0b5ede14b8ee4688902a22dc4f816073195d643d7ea7c41744975fec130ccd <<< 1024) |||
  (0x08ae7a65eaf4566ca94ed58d6d37c8e779e4959162acd3c25c2406490a3a32e0 <<< 1280) |||
  (0x9e1dc186b95735610ef6034866b53e708a8bbd4b1f74dde8c6b4a61c2e2578ba <<< 1536) |||
  (0x16bb54b00f2d99416842e6bf0d89a18cdf2855cee9871e9b948ed9691198f8e1 <<< 1792)

/-- The inverse substitution table, laid out the same way. -/
def invSboxTable : Nat :=
  (0xcbe9dec444438e3487ff2f9b8239e37cfbd7f3819ea340bf38a53630d56a0952 <<< 0) |||
  (0x25d18b6d49a25b76b224d92866a12e084ec3fa420b954cee3d23c2a632947b54 <<< 256) |||
  (0x849d8da75746155edab9edfd5048706c92b6655dcc5ca4d41698688664f6f872 <<< 512) |||
  (0x6b8a130103bdafc1020f3fca8f1e2cd00645b3b80558e4f70ad3bc8c00abd890 <<< 768) |||
  (0x6edf751ce837f9e28535ade72274ac9673e6b4f0cecff297eadc674f4111913a <<< 1024) |||
  (0xf45acd78fec0db9a2079d2c64b3e56fc1bbe18aa0e62b76f89c5291d711af147 <<< 1280) |||
  (0xef9cc9939f7ae52d0d4ab519a97f51605fec8027591012b131c7078833a8dd1f <<< 1536) |||
  (0x7d0c2155631469e126d677ba7e042b17619953833cbbebc8b0f52aae4d3be0a0 <<< 1792)

/-- Byte substitution. -/
def subByte (b : Byte) : Byte := BitVec.ofNat 8 (sboxTable >>> (8 * b.toNat))

/-- Inverse byte substitution. -/
def invSubByte (b : Byte) : Byte := BitVec.ofNat 8 (invSboxTable >>> (8 * b.toNat))

/-- Multiplication by x in the cipher's field. -/
def xtime (b : Byte) : Byte := if b.msb then (b <<< 1) ^^^ 0x1B else b <<< 1

/-- One column of the mixing step: the matrix with rows 2 3 1 1 rotated. -/
def mixColumn (a b c d : Byte) : Bytes :=
  [xtime a ^^^ (xtime b ^^^ b) ^^^ c ^^^ d,
   a ^^^ xtime b ^^^ (xtime c ^^^ c) ^^^ d,
   a ^^^ b ^^^ xtime c ^^^ (xtime d ^^^ d),
   (xtime a ^^^ a) ^^^ b ^^^ c ^^^ xtime d]

/-- Multiplication by 9, 11, 13 and 14 in the cipher's field. -/
def mul9 (b : Byte) : Byte := xtime (xtime (xtime b)) ^^^ b
/-- Multiplication by 11. -/
def mul11 (b : Byte) : Byte := xtime (xtime (xtime b)) ^^^ xtime b ^^^ b
/-- Multiplication by 13. -/
def mul13 (b : Byte) : Byte := xtime (xtime (xtime b)) ^^^ xtime (xtime b) ^^^ b
/-- Multiplication by 14. -/
def mul14 (b : Byte) : Byte := xtime (xtime (xtime b)) ^^^ xtime (xtime b) ^^^ xtime b

/-- One column of the inverse mixing step: the matrix with rows 14 11 13 9 rotated. -/
def invMixColumn (a b c d : Byte) : Bytes :=
  [mul14 a ^^^ mul11 b ^^^ mul13 c ^^^ mul9 d,
   mul9 a ^^^ mul14 b ^^^ mul11 c ^^^ mul13 d,
   mul13 a ^^^ mul9 b ^^^ mul14 c ^^^ mul11 d,
   mul11 a ^^^ mul13 b ^^^ mul9 c ^^^ mul14 d]

/-- A function on columns applied to each column of a state of sixteen bytes, column after column. -/
def onColumns (f : Byte → Byte → Byte → Byte → Bytes) : Bytes → Bytes
  | a :: b :: c :: d :: rest => f a b c d ++ onColumns f rest
  | rest => rest

/-- The bytes of a state at the places listed. -/
def pickBytes (places : List Nat) (st : Bytes) : Bytes := places.map fun i => st.getD i 0

/-- Row r of the state is rotated left by r places. -/
def shiftRows (st : Bytes) : Bytes := pickBytes [0, 5, 10, 15, 4, 9, 14, 3, 8, 13, 2, 7, 12, 1, 6, 11] st

/-- Row r of the state is rotated right by r places. -/
def invShiftRows (st : Bytes) : Bytes := pickBytes [0, 13, 10, 7, 4, 1, 14, 11, 8, 5, 2, 15, 12, 9, 6, 3] st

/-- Bytewise exclusive or. -/
def xorBytes (a b : Bytes) : Bytes := List.zipWith (· ^^^ ·) a b

/-- The round key after `k`, with round constant `rcon`. -/
def nextRoundKey (k : Bytes) (rcon : Byte) : Bytes :=
  let w0 := xorBytes (pickBytes [0, 1, 2, 3] k)
    (xorBytes ((pickBytes [13, 14, 15, 12] k).map subByte) [rcon, 0, 0, 0])
  let w1 := xorBytes (pickBytes [4, 5, 6, 7] k) w0
  let w2 := xorBytes (pickBytes [8, 9, 10, 11] k) w1
  let w3 := xorBytes (pickBytes [12, 13, 14, 15] k) w2
  w0 ++ w1 ++ w2 ++ w3

/-- The round keys from `k` on, one after it for each round constant. -/
def roundKeysFrom (k : Bytes) : List Byte → List Bytes
  | [] => [k]
  | rcon :: rest => k :: roundKeysFrom (nextRoundKey k rcon) rest

/-- The eleven round keys of a key. -/
def roundKeys (key : Block) : List Bytes :=
  roundKeysFrom (bytesOfBlock key) [0x01, 0x02, 0x04, 0x08, 0x10, 0x20, 0x40, 0x80, 0x1B, 0x36]

/-- The rounds after the first key addition: every round but the last mixes columns. -/
def encryptRounds (st : Bytes) : List Bytes → Bytes
  | [] => st
  | [k] => xorBytes (shiftRows (st.map subByte)) k
  | k :: rest => encryptRounds (xorBytes (onColumns mixColumn (shiftRows (st.map subByte))) k) rest

/-- The inverse rounds after the first key addition, the round keys last first. -/
def decryptRounds (st : Bytes) : List Bytes → Bytes
  | [] => st
  | [k] => xorBytes ((invShiftRows st).map invSubByte) k
  | k :: rest => decryptRounds (onColumns invMixColumn (xorBytes ((invShiftRows st).map invSubByte) k)) rest

/-- E(k, x) (R31). -/
def cipherE (key x : Block) : Block :=
  match roundKeys key with
  | [] => x
  | k :: rest => blockOfBytes (encryptRounds (xorBytes (bytesOfBlock x) k) rest)

/-- D(k, x) (R31). -/
def cipherD (key x : Block) : Block :=
  match (roundKeys key).reverse with
  | [] => x
  | k :: rest => blockOfBytes (decryptRounds (xorBytes (bytesOfBlock x) k) rest)

end Sys2Proof.Machine
end

