-- ==== Sys2Proof/Machine/Tags.lean ====
section
/-! DEFINITION. The frame check (R123), the chain tag (R34), the check value (R35), the derivation block (R38) and the outer form
of a frame (12.1). -/

namespace Sys2Proof.Machine

/-! ### The frame check -/

/-- One bit place of the frame check's register (R123 step 2). -/
def crcShift (r : Word) : Word := if r.getLsbD 0 then (r >>> 1) ^^^ 0xEDB88320 else r >>> 1

/-- One byte taken into the register: eight places (R123 step 2). -/
def crcByte (r : Word) (b : Byte) : Word :=
  crcShift (crcShift (crcShift (crcShift (crcShift (crcShift (crcShift (crcShift (r ^^^ b.setWidth 32))))))))

/-- The frame check of header and body (R123). -/
def frameCheck (bs : Bytes) : Word := ~~~ (bs.foldl crcByte 0xFFFFFFFF)

/-- A frame: header and body followed by their frame check, most significant byte first (R123). -/
def sealFrame (bs : Bytes) : Bytes := bs ++ be32 (frameCheck bs).toNat

/-- An 8-byte header (12.1): kind, unit address, body length, number. -/
def frameHeader (kind : Byte) (unit length : Nat) (number : Word) : Bytes :=
  [kind, byteOf unit] ++ be16 length ++ be32 number.toNat

/-- The body of a whole frame: what stands between the 8-byte header and the 4-byte frame check. -/
def frameBody (frame : Bytes) : Bytes := sliceBytes frame 8 (frame.length - 12)

/-! ### Cipher steps and the chain tag -/

/-- The result of a cipher step (R31). -/
def CipherStep.result (c : CipherStep) : Block :=
  match c.fn with
  | .enc => cipherE c.key c.block
  | .dec => cipherD c.key c.block

/-- The message padded: 80H, then 00H bytes to a multiple of 16 (R34 stage 1). -/
def padMessage (bs : Bytes) : Bytes := bs ++ [0x80] ++ List.replicate (15 - bs.length % 16) 0

/-- The first n 16-byte blocks of a sequence of bytes. -/
def takeBlocks : Nat → Bytes → List Block
  | 0, _ => []
  | n + 1, bs => blockOfBytes (bs.take 16) :: takeBlocks n (bs.drop 16)

/-- The blocks of the padded message: floor(L / 16) + 1 of them (R34). -/
def tagBlocks (bs : Bytes) : List Block := takeBlocks (bs.length / 16 + 1) (padMessage bs)

/-- The first 8 bytes of a chain value (R34 stage 3). -/
def truncateTag (v : Block) : Tag := BitVec.ofNat 64 (v.toNat / 2 ^ 64)

/-- The chain tag of a message under a key (R34). -/
def chainTag (key : Block) (bs : Bytes) : Tag :=
  truncateTag ((tagBlocks bs).foldl (fun v b => cipherE key (v ^^^ b)) 0)

/-- The work of computing the chain tag of a message, before its first step (R34 stage 2: V₀ is the zero block). -/
def TagJob.start (key : Block) (bs : Bytes) : TagJob := { key := key, chain := 0, blocks := tagBlocks bs }

/-- The step a tag in the making presents (R34 stage 2). -/
def TagJob.step (j : TagJob) : CipherStep := { fn := .enc, key := j.key, block := j.chain ^^^ j.blocks.headD 0 }

/-- The tag in the making after a step's result. -/
def TagJob.next (j : TagJob) (v : Block) : TagJob := { j with chain := v, blocks := j.blocks.tail }

/-- Whether the step presented is the last of the tag. -/
def TagJob.isLast (j : TagJob) : Bool := j.blocks.tail.isEmpty

/-- The check value a cipher result gives: its first 3 bytes (R35). -/
def checkOfBlock (v : Block) : Check := BitVec.ofNat 24 (v.toNat / 2 ^ 104)

/-- The check value of a key (R35). -/
def checkValue (key : Block) : Check := checkOfBlock (cipherE key 0)

/-- The step that computes a key's check value (R35). -/
def checkStep (key : Block) : CipherStep := { fn := .enc, key := key, block := 0 }

/-! ### Card-key derivation -/

/-- An identity field is valid when it is 12 to 19 ASCII digits (R37). -/
def validIdentity (bs : Bytes) : Bool :=
  decide (12 ≤ bs.length) && decide (bs.length ≤ 19) && bs.all fun b => decide (0x30 ≤ b.toNat) && decide (b.toNat ≤ 0x39)

/-- The derivation block (R38): twenty nibbles, the digits right-aligned and FH before them, then the variant, then 00H bytes. -/
def derivationBlock (digits : Bytes) (variant : BitVec 16) : Block :=
  let nibbles := List.replicate (20 - digits.length) 15 ++ digits.map fun b => b.toNat - 0x30
  BitVec.ofNat 128 ((nibbles.foldl (fun a d => a * 16 + d) 0) * 2 ^ 48 + variant.toNat * 2 ^ 32)

end Sys2Proof.Machine
end

