-- ==== Sys2Proof/Machine/Ops.lean ====
section
/-! DEFINITION. The operations every command is made of: updates of one record, saturating counters, open choices, offering a
notice (R172 to R174), hold causes (R45, R46), LINE notices (R101), the idle timer (R187), the grant gate (R148), key uses (R20,
R21), and the sharing of the Cipher Core (R32, R33). -/

namespace Sys2Proof.Machine

/-! ### Counters and deadlines -/

/-- The largest value of a 32-bit, a 16-bit and an 8-bit counter. -/
def max32 : Nat := 4294967295
/-- The largest value of a 16-bit counter. -/
def max16 : Nat := 65535
/-- The largest value of an 8-bit counter. -/
def max8 : Nat := 255

/-- An increment of a saturating counter (0.12): at its maximum it stays there and sets its limit flag. -/
def bumpCounter (max : Nat) (c : Counter) : Counter :=
  if max ≤ c.value then { c with limit := true } else { c with value := c.value + 1 }

/-- A deadline on the millisecond counter has been reached: it lies behind the counter by less than half its range (R170). -/
def deadlineReached (now deadline : Word) : Bool := decide ((now - deadline).toNat < 2147483648)

/-- The deadline of a timer started now (R170). -/
def State.after (s : State) (ms : Nat) : Word := s.time.millis + BitVec.ofNat 32 ms

/-! ### Open choices -/

/-- An element put at a place of a list. -/
def putAt {α : Type} (i : Nat) (x : α) (xs : List α) : List α := xs.take i ++ x :: xs.drop i

/-- A list in an order the spec leaves open: the n-th open choice places the first element among the others (log 4). -/
def arrange {α : Type} (n : Nat) : List α → List α
  | [] => []
  | [x] => [x]
  | x :: rest => putAt (Config.freeIndex n rest.length % (rest.length + 1)) x (arrange (n + 1) rest)

/-- The open choices an arrangement takes are counted. -/
def State.tookChoices (s : State) (k : Nat) : State := { s with free := s.free + (k - 1) }

/-! ### Updates of one record -/

/-- A slot record is replaced. -/
def State.setSlot (s : State) (n : SlotNo) (k : Slot) : State :=
  { s with store := { s.store with slots := s.store.slots.set n.val k n.isLt } }

/-- A slot becomes EMPTY with its lock kept (R1, R13, R14). -/
def State.emptySlot (s : State) (n : SlotNo) : State := s.setSlot n (Slot.blank (s.slot n).lock)

/-- A line record is replaced. -/
def State.setLine (s : State) (l : LineNo) (x : Line) : State :=
  { s with dispatch := { s.dispatch with lines := s.dispatch.lines.set l.val x l.isLt } }

/-- A sensor record is replaced. -/
def State.setSensor (s : State) (i : SensorNo) (x : Sensor) : State :=
  { s with tamper := { s.tamper with sensors := s.tamper.sensors.set i.val x i.isLt } }

/-- The run of a run number is changed. -/
def State.updateRun (s : State) (n : Word) (f : Run → Run) : State :=
  { s with runs := { s.runs with table := s.runs.table.map fun r => if r.number == n then f r else r } }

/-- The suspend set is given a cause, or has it removed (R7). -/
def State.setCause (s : State) (i : SensorNo) (present : Bool) : State :=
  { s with store := { s.store with suspend := s.store.suspend.set i.val present i.isLt } }

/-! ### Notices -/

/-- The entry of the notice mask for a kind (R173, 12.4). -/
def State.noticeEnabled (s : State) (kind : NoticeKind) : Bool := s.report.noticeMask.getLsbD (kind.code - 1)

/-- Header and body, without the tag, of a notice built now (R172): the body holds kind, variant, values, summary and tag. -/
def State.noticeMessage (s : State) (kind : NoticeKind) (variant : Byte) (values : Bytes) : Bytes :=
  frameHeader kindNotice s.link.address (values.length + 12) s.time.millis ++
    [byteOf kind.code, variant] ++ values ++ be16 s.summary.toNat

/-- The tag of a notice built now: in the making under slot 0 while that is ACTIVE, 00H bytes otherwise (R36, R172). -/
def State.noticeTag (s : State) (message : Bytes) : NoticeTag :=
  match s.activeKey 0 with
  | none => .ready 0
  | some key => .computing (TagJob.start key message)

/-- A notice of an enabled kind takes a place in the Notice Queue, or is dropped and counted (R174, R175). -/
def State.queueNotice (s : State) (message : Bytes) : State :=
  if s.report.notices.length < 16 then
    { s with report := { s.report with notices := s.report.notices ++ [{ message := message, tag := s.noticeTag message }] } }
  else { s with report := { s.report with lost := bumpCounter max16 s.report.lost } }

/-- A block offers a notice (R172): while main power is off nothing is offered, and a disabled kind is not queued (R173). -/
def offer (kind : NoticeKind) (variant : Byte) (values : Bytes) (s : State) : State :=
  if s.mainUp && s.noticeEnabled kind then s.queueNotice (s.noticeMessage kind variant values) else s

/-- A KEY notice (chapter 1). -/
def offerKey (v : KeyVariant) (values : Bytes) (s : State) : State := offer .key v.code values s

/-- A LINE notice (R101): the line, its reported state before and after, barred, fault causes, occupied credit in one byte, the
model's choice (log 33). -/
def offerLine (l : LineNo) (was : LineState) (s : State) : State :=
  offer .line 0x00
    [byteOf l.val, was.code, (s.reported l).code, flagByte (s.line l).barred, (s.line l).faults.byte, byteOf (s.line l).occupied] s

/-- The LINE notices of the lines whose reported state differs from what it was, in ascending line order (R101). An effect and a take of
one event offer theirs one after the other, the model's choice (log 41). -/
def lineNotices (was : State) (s : State) : State :=
  (List.finRange 8).foldl (fun t l => if was.reported l = t.reported l then t else offerLine l (was.reported l) t) s

/-! ### Custody and the idle timer -/

/-- The idle timer is started (R187): only while the limit is not 0 and the custody state is OPERATIONAL. -/
def State.startIdle (s : State) : State :=
  if s.power.idleLimit ≠ 0 ∧ s.store.custody = .operational then
    { s with power := { s.power with idle := some { minutes := s.power.idleLimit, deadline := s.after 60000 } } }
  else s

/-- The custody state changes; the idle timer is STOPPED when it leaves OPERATIONAL (R187). -/
def State.setCustody (s : State) (c : Custody) : State :=
  { s with
    store := { s.store with custody := c }
    power := { s.power with idle := if c = .operational then s.power.idle else none } }

/-- The grant gate is emptied and its deadline cancelled (R148). -/
def State.emptyGate (s : State) : State := { s with order := { s.order with gate := { grants := [], deadline := none } } }

/-- The working copies of the usable keys are made ready if the custody state is OPERATIONAL, and none otherwise (R30, R26). -/
def State.readyCopies (s : State) : State :=
  { s with
    store := { s.store with
      working :=
        if s.store.custody = .operational then s.store.slots.map Slot.usable else Vector.replicate 64 false } }

/-- The working copies of keys are discarded (R25, R27). -/
def State.discardCopies (s : State) : State := { s with store := { s.store with working := Vector.replicate 64 false } }

/-! ### Hold causes -/

/-- A cause is added to a run: a LIVE run becomes HELD (R45). -/
def Run.addCause (f : HoldCauses → HoldCauses) (r : Run) : Run :=
  { r with holds := f r.holds, state := if r.state = .live then .held else r.state }

/-- Causes are removed from a run: a HELD run whose set becomes empty becomes LIVE (R45). -/
def Run.dropCauses (f : HoldCauses → HoldCauses) (r : Run) : Run :=
  { r with holds := f r.holds, state := if r.state = .held ∧ (f r.holds).isEmpty = true then .live else r.state }

/-- A run names a slot as its master or prep slot (R46). -/
def Run.names (r : Run) (n : SlotNo) : Bool := decide (r.master = n) || decide (r.prep = some n)

/-- A run the KEY cause reaches: in DEFINED, LIVE or HELD (R23, R46). A CLOSING run is left as it was at a zeroisation too, where R27
speaks of every run not CLOSED: read within R23, R44 and R46, by inference (log 21). -/
def Run.takesKeyCause (r : Run) : Bool := decide (r.state = .defined) || decide (r.state = .live) || decide (r.state = .held)

/-- The Run Controller's answer to the report that a slot has ceased to be usable (R23, R46). -/
def State.reportUnusable (s : State) (n : SlotNo) : State :=
  { s with
    runs := { s.runs with
      table := s.runs.table.map fun r =>
        if r.names n && r.takesKeyCause then r.addCause fun h => { h with key := true } else r } }

/-! ### Key uses -/

/-- The kinds of use the engine asks for (R20). -/
inductive UseKind where
  | derivation
  | wrap
  | unwrap
  deriving DecidableEq, Repr

/-- The class a use needs (R3). -/
def UseKind.cls : UseKind → KeyClass
  | .derivation => .master
  | .wrap => .line
  | .unwrap => .prep

/-- A use of a slot is counted (R20); if that brings the counter to its nonzero ceiling the slot ceases to be usable: the runs
that name it gain KEY, and the lines that name it become OFF with their LINE notices (R21, R23, R102). -/
def State.countUse (s : State) (n : SlotNo) : State :=
  let k := s.slot n
  let s1 := s.setSlot n { k with uses := bumpCounter max32 k.uses }
  if (s1.slot n).spent then lineNotices s (s1.reportUnusable n) else s1

/-- The store's answer to a request for one use of a slot (R20): the key and the counted use, or a refusal, KEY SPENT with its
KEY notice (R21), whose use counter is carried without its limit flag, the model's choice (log 36). -/
def requestUse (n : SlotNo) (u : UseKind) (s : State) : Except FailReason Block × State :=
  let k := s.slot n
  if s.store.custody ≠ .operational ∨ s.suspended = true then (.error .keyUnavailable, s)
  else if k.state ≠ .active then (.error .keyUnavailable, s)
  else if k.cls ≠ some u.cls then (.error .keyUnavailable, s)
  else if k.underCeiling = false then
    (.error .keySpent, offerKey .spent ([byteOf n.val] ++ be32 k.uses.value ++ be32 k.ceiling) s)
  else (.ok (k.key.getD 0), s.countUse n)

/-! ### The Cipher Core -/

/-- The users of the Key Store side. -/
def KsUser.all : List KsUser := [.load, .verify, .order, .report]

/-- The job of the notice whose tag is being computed: the first in the queue that is not ready (R174, log 17). -/
def State.noticeJob (s : State) : Option TagJob :=
  s.report.notices.findSome? fun n =>
    match n.tag with
    | .ready _ => none
    | .computing j => some j

/-- The step a load presents (R42): its unwrap, counted if the unwrapping slot is an IMPORT slot, or its check value. -/
def Load.step (l : Load) : KsStep :=
  match l.stage with
  | .unwrap n key wrapped =>
    { user := .load, step := { fn := .dec, key := key, block := wrapped }, counts := if n.val < 7 then none else some n }
  | .check clear => { user := .load, step := checkStep clear, counts := none }

/-- The step a user of the Key Store side has to present, if any (R32). -/
def State.wantedStep (s : State) : KsUser → Option KsStep
  | .load =>
    match s.order.hand.map OrderInHand.handling with
    | some (.checking key) => some { user := .load, step := checkStep key, counts := none }
    | some (.loading l) => some l.step
    | _ => none
  | .verify => s.store.verify.map fun v => { user := .verify, step := checkStep ((s.slot v.slot).key.getD 0), counts := none }
  | .order =>
    match s.order.hand.map OrderInHand.handling with
    | some (.comparing _ j) => some { user := .order, step := j.step, counts := none }
    | some (.answering _ j) => some { user := .order, step := j.step, counts := none }
    | _ => none
  | .report => s.noticeJob.map fun j => { user := .report, step := j.step, counts := none }

/-- The Core is at a Key Store side step of this user, not discarded. -/
def State.coreServes (s : State) (u : KsUser) : Bool :=
  match s.core.work with
  | .keyStore k false => decide (k.user = u)
  | _ => false

/-- A user has a step outstanding, in the Core or waiting (R32). -/
def State.outstanding (s : State) (u : KsUser) : Bool := s.coreServes u || s.core.queue.any fun k => decide (k.user = u)

/-- The steps to be presented: each user has at most one outstanding (R32). -/
def State.newSteps (s : State) : List KsStep :=
  KsUser.all.filterMap fun u => if s.outstanding u then none else s.wantedStep u

/-- The users present their steps. When two are presented together, either may enter the queue first (R32, log 4). -/
def presentSteps (s : State) : State :=
  let s1 := s.tookChoices s.newSteps.length
  { s1 with core := { s.core with queue := s.core.queue ++ arrange s.free s.newSteps } }

/-- An idle Core begins the first waiting Key Store side step, or else the engine's waiting step (R32). The use of an IMPORT slot
is counted when its unwrap step is begun (R42), while the slot still holds its key. -/
def beginStep (s : State) : State :=
  if s.core.work ≠ .idle then s
  else
    match s.core.queue with
    | k :: rest =>
      let s1 := { s with core := { s.core with work := .keyStore k false, queue := rest } }
      match k.counts with
      | none => s1
      | some n => if (s1.slot n).state = .active then s1.countUse n else s1
    | [] =>
      match s.core.engineWaits with
      | none => s
      | some c => { s with core := { s.core with work := .engine c false, engineWaits := none } }

/-- What every event ends with: the users present their new steps and an idle Core begins one (R32). -/
def settleCore (s : State) : State := presentSteps (beginStep (presentSteps s))

/-- The step in progress has ended. -/
def State.endStep (s : State) : State := { s with core := { s.core with work := .idle } }

/-- The engine's step is given up: one in progress runs to its end and its result is discarded (R33, R96). -/
def State.discardEngineStep (s : State) : State :=
  { s with
    core := { s.core with
      engineWaits := none
      work :=
        match s.core.work with
        | .engine c _ => .engine c true
        | w => w } }

/-- The steps of a user are given up: a waiting one leaves the queue, one in progress runs to its end for nobody (R33). -/
def State.discardUser (s : State) (u : KsUser) : State :=
  { s with
    core := { s.core with
      queue := s.core.queue.filter fun k => decide (k.user ≠ u)
      work :=
        match s.core.work with
        | .keyStore k d => .keyStore k (d || decide (k.user = u))
        | w => w } }

end Sys2Proof.Machine
end

