-- ==== Sys2Proof/Machine/Runs.lean ====
section
/-! DEFINITION. The Run Controller (chapter 3): offsets and the window, the low mark, the spoil allowance, admission, settlement,
late and stray outcomes, lapses, completion and closing. -/

namespace Sys2Proof.Machine

/-! ### Offsets and the window (R54, R55) -/

/-- The offset of a card (R54). -/
def Run.offset (r : Run) (seq : Word) : Nat := (seq - r.first).toNat

/-- The sequence number of an offset (R54). -/
def Run.seqOf (r : Run) (o : Nat) : Word := r.first + BitVec.ofNat 32 o

/-- The ring entry of an offset (R54). -/
def ringEntry (o : Nat) : Fin 64 := ⟨o % 64, Nat.mod_lt o (by decide)⟩

/-- An offset of the run that lies in the window (R54). -/
def Run.inWindow (r : Run) (o : Nat) : Bool := decide (r.low ≤ o) && decide (o < r.low + 64) && decide (o < r.quantity)

/-- The position at an offset, when the offset lies in the window (R54). -/
def Run.position (r : Run) (o : Nat) : Option Position :=
  if r.inWindow o then r.window[(ringEntry o).val] else none

/-- The position at an offset is replaced. -/
def Run.setPosition (r : Run) (o : Nat) (p : Option Position) : Run :=
  { r with window := r.window.set (ringEntry o).val p (ringEntry o).isLt }

/-- The position records in use, in ring order. -/
def Run.positions (r : Run) : List Position := r.window.toList.filterMap id

/-- The number of positions in a state. -/
def Run.countState (r : Run) (st : PosState) : Nat := r.positions.countP fun p => decide (p.state = st)

/-- A position that the low mark passes: DONE or VOID (R56). -/
def Position.settled (p : Position) : Bool := decide (p.state = .done) || decide (p.state = .voided)

/-- The window at OPEN RUN (R48): offsets 0 to min(63, Q − 1), each in the form in which a position enters the window. -/
def freshWindow (quantity : Nat) : Vector (Option Position) 64 :=
  Vector.ofFn fun i => if i.val < quantity then some Position.fresh else none

/-! ### The low mark (R56) -/

/-- The low mark moves up by one and its ring entry is released or reused (R56 steps 1 to 3). -/
def Run.raiseLow (r : Run) : Run :=
  { r.setPosition r.low (if r.low + 64 < r.quantity then some Position.fresh else none) with low := r.low + 1 }

/-- The position at the low mark is settled, so that the mark moves on (R56). -/
def Run.lowSettled (r : Run) : Bool :=
  match r.position r.low with
  | none => false
  | some p => p.settled

/-- The advance of the low mark, at most so many places: it stops at the first position that is not settled, or at Q (R56). -/
def Run.advanceLow : Nat → Run → Run
  | 0, r => r
  | n + 1, r => if r.lowSettled then Run.advanceLow n r.raiseLow else r

/-- The advance of the low mark: 64 places suffice, since a reused entry is OPEN (R56). -/
def Run.advance (r : Run) : Run := r.advanceLow 64

/-! ### The spoil allowance (R49) -/

/-- A product divided by 1,000 and rounded half to even (R49 stages 2 and 3). -/
def roundThousandth (m : Nat) : Nat :=
  let q := m / 1000
  let r := m % 1000
  if r < 500 then q else if 500 < r then q + 1 else if q % 2 = 0 then q else q + 1

/-- The spoil allowance (R49). -/
def spoilAllowance (quantity rate : Nat) : Nat := min (roundThousandth (quantity * rate)) quantity

/-- Spoiled is compared with the allowance, and OVERSPOIL is added when it is greater (R52). -/
def Run.overspoilTest (r : Run) : Run :=
  if r.allowance < r.spoiled then r.addCause fun h => { h with overspoil := true } else r

/-! ### Notices of the Run Controller (R77) -/

/-- A REFUSAL notice: run, sequence number, reason (R58). -/
def offerRefusal (n seq : Word) (reason : RefusalReason) (s : State) : State :=
  offer .refusal reason.code (be32 n.toNat ++ be32 seq.toNat ++ [reason.code]) s

/-- A CARD notice: run, sequence number, line, and the attempt or the result (R64 to R67). -/
def offerCard (v : CardVariant) (n seq : Word) (l : LineNo) (last : Byte) (s : State) : State :=
  offer .card v.code (be32 n.toNat ++ be32 seq.toNat ++ [byteOf l.val, last]) s

/-- The six 32-bit counters of a run. -/
def Run.counters (r : Run) : Bytes :=
  be32 r.issues ++ be32 r.reissues ++ be32 r.done ++ be32 r.spoiled ++ be32 r.lapsed ++ be32 r.voided

/-- A PROGRESS notice: run, state, low mark, counters (R69). -/
def offerProgress (r : Run) (s : State) : State :=
  offer .progress 0x00 (be32 r.number.toNat ++ [r.state.code] ++ be32 r.low ++ r.counters) s

/-- A RUN notice: run, outcome, counters, duplicates, late, unissued (R70, R72). Duplicates and late are carried without their limit
flags, the model's choice (log 36). -/
def offerRun (v : RunOutcome) (r : Run) (s : State) : State :=
  offer .run v.code
    (be32 r.number.toNat ++ [v.code] ++ r.counters ++ be16 r.duplicates.value ++ be16 r.late.value ++
      be32 (r.unissued.getD 0)) s

/-- What a run does and the notice that follows from the record as it then stands. -/
def State.changeRun (s : State) (n : Word) (f : Run → Run) (tell : Run → State → State) : State :=
  let t := s.updateRun n f
  match t.run n with
  | none => t
  | some r => tell r t

/-! ### Completion and closing (R70, R72) -/

/-- A run whose low mark stands at Q is CLOSED with an unissued count of 0 (R70). -/
def Run.completed (r : Run) : Run := { r with state := .closed, unissued := some 0 }

/-- The low mark of a run is advanced; when it reaches Q the run is complete and a RUN notice COMPLETED is offered (R56, R70). -/
def advanceRun (n : Word) (s : State) : State :=
  let t := s.updateRun n Run.advance
  match t.run n with
  | none => t
  | some r =>
    if r.low = r.quantity ∧ r.state ≠ .closed then t.changeRun n Run.completed (offerRun .completed) else t

/-- The test by which a CLOSING run closes: nothing OUT, nothing STAGED (R72). -/
def Run.canClose (r : Run) : Bool :=
  decide (r.state = .closing) && decide (r.countState .out = 0) && decide (r.countState .staged = 0)

/-- The SPOILED positions of the window become VOID, each counted (R72 step 1). -/
def Run.voidSpoiled (r : Run) : Run :=
  { r with
    voided := r.voided + r.countState .spoiled
    window := r.window.map fun e => e.map fun p => if p.state = .spoiled then { p with state := .voided } else p }

/-- The cards never issued: the OPEN positions of the window and all that lie beyond it (R72 step 3). -/
def Run.neverIssued (r : Run) : Nat := r.countState .opened + (r.quantity - (r.low + 64))

/-- A closing run's books are fixed (R72 steps 1 to 4). -/
def Run.close (r : Run) : Run :=
  let a := r.voidSpoiled.advance
  { a with state := .closed, unissued := some a.neverIssued }

/-- The test of R72, with the RUN notice CLOSED when it holds. -/
def closeTest (n : Word) (s : State) : State :=
  match s.run n with
  | none => s
  | some r => if r.canClose then s.changeRun n Run.close (offerRun .closed) else s

/-! ### Admission (R57 to R59) -/

/-- The fields of a record: so many of them, which fill the bytes exactly, each 1 to 200 bytes long (R57, R189). -/
def parseFields : Nat → Bytes → Option (List Field)
  | 0, [] => some []
  | 0, _ :: _ => none
  | n + 1, tag :: length :: rest =>
    if length.toNat = 0 ∨ 200 < length.toNat ∨ rest.length < length.toNat then none
    else (parseFields n (rest.drop length.toNat)).map fun fs => { tag := tag, value := rest.take length.toNat } :: fs
  | _ + 1, [_] => none
  | _ + 1, [] => none

/-- The fields of a record body, when the record is well formed: 1 to 32 of them, no tag twice (R57 step 2, R189). -/
def recordFields (body : Bytes) : Option (List Field) :=
  if (byteAt body 8).toNat = 0 ∨ 32 < (byteAt body 8).toNat then none
  else
    match parseFields (byteAt body 8).toNat (body.drop 9) with
    | none => none
    | some fs => if (fs.map Field.tag).Nodup then some fs else none

/-- The reason for which a well-formed record of a known run is refused (R57 steps 3 to 9). -/
def State.admissionReason (s : State) (r : Run) (seq : Word) : Option RefusalReason :=
  let o := r.offset seq
  if r.state ≠ .live then some .runNotLive
  else if s.store.custody ≠ .operational ∨ s.suspended = true then some .storeUnavailable
  else if r.quantity ≤ o then some .outOfRun
  else if o < r.low then some .settled
  else if r.low + 64 ≤ o then some .ahead
  else
    match r.position o with
    | none => some .outOfRun
    | some p =>
      if p.state = .staged ∨ p.state = .out ∨ p.state = .done then some .duplicate
      else if p.state = .voided then some .voided
      else if 32 ≤ s.runs.staging.length then some .stagingFull
      else none

/-- A position becomes STAGED, and where it came from is remembered (R59). -/
def Position.stage (p : Position) : Position :=
  { p with state := .staged, prior := some (if p.state = .spoiled then .spoiled else .opened) }

/-- A STAGED position returns to its prior state (R61, R63). -/
def Position.unstage (p : Position) : Position :=
  if p.state = .staged then
    { p with state := if p.prior = some .spoiled then .spoiled else .opened, prior := none }
  else p

/-- The position at an offset is changed, where the window holds one. -/
def Run.mapPosition (r : Run) (o : Nat) (f : Position → Position) : Run :=
  match r.position o with
  | none => r
  | some p => r.setPosition o (some (f p))

/-- A record joins the tail of the Staging Queue and its position becomes STAGED (R59). -/
def State.stageRecord (s : State) (r : Run) (seq : Word) (fields : List Field) : State :=
  let t := s.updateRun r.number fun x => x.mapPosition (x.offset seq) Position.stage
  { t with runs := { t.runs with staging := t.runs.staging ++ [{ run := r.number, seq := seq, fields := fields }] } }

/-- A refusal's duplicates counter (R58). -/
def Run.countDuplicate (r : Run) : Run := { r with duplicates := bumpCounter max16 r.duplicates }

/-- A RECORD frame addressed to this unit is admitted, refused or handed onward (R57 to R59). -/
def admitRecord (frame : Bytes) (s : State) : State :=
  let body := frameBody frame
  let n := wordOfBytes (sliceBytes body 0 4)
  let seq := wordOfBytes (sliceBytes body 4 4)
  if body.length < 9 then
    offerRefusal (if body.length < 4 then 0 else n) (if body.length < 8 then 0 else seq) .malformed s
  else
    match s.run n with
    | none =>
      if s.link.chainEnd then offerRefusal n seq .unknownRun s
      else { s with link := { s.link with onwardQueue := s.link.onwardQueue ++ [frame] } }
    | some r =>
      match recordFields body with
      | none => offerRefusal n seq .malformed s
      | some fields =>
        match s.admissionReason r seq with
        | none => s.stageRecord r seq fields
        | some .duplicate => (offerRefusal n seq .duplicate s).updateRun n Run.countDuplicate
        | some reason => offerRefusal n seq reason s

/-! ### Outcomes and lapses (R64 to R67) -/

/-- The frame of a card leaves a transmit queue unless its sending has begun (R116). -/
def Line.removeFrame (x : Line) (n seq : Word) : Line :=
  { x with
    transmit :=
      match x.begun, x.transmit with
      | true, h :: rest => h :: rest.filter fun c => !(c.run == n && c.seq == seq)
      | _, q => q.filter fun c => !(c.run == n && c.seq == seq) }

/-- A card ceases to be OUT on a line: its frame is removed if it still waits, and its credit is returned (R64, R67, R116). -/
def Line.returnCard (x : Line) (n seq : Word) : Line :=
  { x.removeFrame n seq with occupied := x.occupied - 1 }

/-- An OUT position is spoiled, or void at its fourth attempt (R64, R67). -/
def Position.spoil (p : Position) : Position :=
  { p with state := if p.attempt = 4 then .voided else .spoiled, line := none, dispatched := none }

/-- An OUT position lapses on a line (R67 steps 2 to 4). -/
def Position.lapse (p : Position) (l : LineNo) : Position :=
  { p.spoil with lateEligible := true, lapsedLine := some l }

/-- An OUT position is settled DONE (R64). -/
def Position.finish (p : Position) : Position := { p with state := .done, line := none, dispatched := none }

/-- A run's books for a spoil reported at an offset (R64). -/
def Run.spoil (r : Run) (o : Nat) (p : Position) : Run :=
  { r.setPosition o (some p.spoil) with
    spoiled := r.spoiled + 1, voided := if p.attempt = 4 then r.voided + 1 else r.voided }

/-- A run's books for a lapse at an offset (R67 steps 1 to 4). -/
def Run.lapse (r : Run) (o : Nat) (p : Position) (l : LineNo) : Run :=
  { r.setPosition o (some (p.lapse l)) with
    spoiled := r.spoiled + 1, lapsed := r.lapsed + 1, voided := if p.attempt = 4 then r.voided + 1 else r.voided }

/-- A run's books for a card reported DONE (R64, R69). -/
def Run.finish (r : Run) (o : Nat) (p : Position) : Run :=
  { r.setPosition o (some p.finish) with done := r.done + 1, progress := r.progress + 1 }

/-- The progress count that has reached N returns to 0 with a PROGRESS notice (R69). -/
def progressTest (n : Word) (s : State) : State :=
  match s.run n with
  | none => s
  | some r =>
    if r.postscaler ≤ r.progress then s.changeRun n (fun x => { x with progress := 0 }) offerProgress else s

/-- An outcome settles the position at an offset of a run, OUT on the line it comes from (R64). -/
def settle (l : LineNo) (n : Word) (o : Nat) (seq : Word) (p : Position) (res : CardResult) (s : State) : State :=
  let x := (s.line l).returnCard n seq
  match res with
  | .done =>
    let s1 := (s.setLine l { x with consecutive := 0 }).updateRun n fun r => r.finish o p
    closeTest n (advanceRun n (progressTest n s1))
  | .spoiled | .rejected =>
    let y := if res = .rejected then { x with rejects := bumpCounter max16 x.rejects } else x
    let s1 := (s.setLine l y).updateRun n fun r => r.spoil o p
    let s2 := if p.attempt = 4 then offerCard .voided n seq l (byteOf p.attempt) s1 else s1
    let s3 := s2.updateRun n Run.overspoilTest
    closeTest n (if p.attempt = 4 then advanceRun n s3 else s3)

/-- A late outcome is counted by its run and its line, with a CARD notice LATE (R65). -/
def lateOutcome (l : LineNo) (n seq : Word) (res : CardResult) (s : State) : State :=
  let x := s.line l
  let s1 := (s.updateRun n fun r => { r with late := bumpCounter max16 r.late }).setLine l { x with late := bumpCounter max16 x.late }
  offerCard .late n seq l res.code s1

/-- A stray outcome is counted by its line, with a CARD notice STRAY (R66). -/
def strayOutcome (l : LineNo) (n seq : Word) (res : CardResult) (s : State) : State :=
  let x := s.line l
  offerCard .stray n seq l res.code (s.setLine l { x with strays := bumpCounter max16 x.strays })

/-- The Run Controller decides what an outcome from a line is (R64 to R66). -/
def takeOutcome (l : LineNo) (n seq : Word) (res : CardResult) (s : State) : State :=
  match s.run n with
  | none => strayOutcome l n seq res s
  | some r =>
    match r.position (r.offset seq) with
    | none => strayOutcome l n seq res s
    | some p =>
      if p.state = .out ∧ p.line = some l then settle l n (r.offset seq) seq p res s
      else if p.lateEligible = true ∧ p.lapsedLine = some l then lateOutcome l n seq res s
      else strayOutcome l n seq res s

/-- A line's record at a lapse on it (R67 step 5, R112). -/
def Line.countLapse (x : Line) : Line :=
  { x with
    lapses := bumpCounter max16 x.lapses
    consecutive := if x.consecutive < 3 then x.consecutive + 1 else x.consecutive
    faults := if 2 ≤ x.consecutive then { x.faults with lapses := true } else x.faults }

/-- The position at an offset lapses, OUT on a line (R67). -/
def lapsePosition (l : LineNo) (n : Word) (o : Nat) (seq : Word) (p : Position) (s : State) : State :=
  let x := ((s.line l).returnCard n seq).countLapse
  let s1 := (s.setLine l x).updateRun n fun r => r.lapse o p l
  let s2 := offerCard .lapsed n seq l (byteOf p.attempt) s1
  let s3 := if p.attempt = 4 then offerCard .voided n seq l (byteOf p.attempt) s2 else s2
  let s4 := (lineNotices s s3).updateRun n Run.overspoilTest
  closeTest n (if p.attempt = 4 then advanceRun n s4 else s4)

/-- The outcome timer of the position at an offset has expired while it is OUT on a line (R62, R67, R170). -/
def State.expired (s : State) (n : Word) (o : Nat) : Option (Run × Position × LineNo) :=
  match s.run n with
  | none => none
  | some r =>
    match r.position o with
    | none => none
    | some p =>
      match p.state, p.line, p.dispatched with
      | .out, some l, some at0 =>
        if deadlineReached s.time.millis (at0 + BitVec.ofNat 32 r.timeout) then some (r, p, l) else none
      | _, _, _ => none

/-! ### Closing by order (R61, R71) -/

/-- The records of a run leave the Staging Queue, their positions return to their prior states, and a REFUSAL notice RUN NOT LIVE
is offered for each in queue order (R61, R71). -/
def withdrawRun (n : Word) (s : State) : State :=
  let mine := s.runs.staging.filter fun x => x.run == n
  let s1 := { s with runs := { s.runs with staging := s.runs.staging.filter fun x => !(x.run == n) } }
  mine.foldl
    (fun t x => offerRefusal n x.seq .runNotLive (t.updateRun n fun r => r.mapPosition (r.offset x.seq) Position.unstage)) s1

end Sys2Proof.Machine
end

