-- ==== Sys2Proof/Machine/Engine.lean ====
section
/-! DEFINITION. The Transform Engine (chapter 4, R37 to R41) and the dispatch arbiter (R114): the instances of a recipe, the walk of
a record, completion, failure, abort, and the take of the oldest eligible record. -/

namespace Sys2Proof.Machine

/-! ### Instances (R79) -/

/-- The instances of one action, the i-th with its source and result tags raised by i (R79). -/
def expandAction (number : Nat) (a : Action) : List ActionInst :=
  (List.range a.repeats).map fun i =>
    { action := number, kind := a.kind, source := byteOf (a.source + i), result := byteOf (a.result + i), variant := a.variant,
      optional := a.optional }

/-- The instances of a recipe in the order of the walk (R79). -/
def expandRecipe (actions : List Action) : List ActionInst :=
  actions.zipIdx.flatMap fun p => expandAction (p.2 + 1) p.1

/-! ### The walk (R82 to R88, R92) -/

/-- Where a walk stands when its event ends: it waits for a cipher step, it has failed, or it is complete. -/
inductive WalkEnd where
  | waits (w : Work) (c : CipherStep)
  | fails (w : Work) (reason : FailReason)
  | completes (w : Work)
  deriving DecidableEq, Repr

/-- The record's field of a tag. -/
def Work.source (w : Work) (tag : Byte) : Option Bytes := (w.fields.find? fun f => f.tag == tag).map Field.value

/-- An output of this length does not fit the body (R92 test 3). -/
def Work.oversize (w : Work) (length : Nat) : Bool := decide (1000 < w.size + 2 + length)

/-- An output field is appended, and the walk moves past its instance (R92 step 5). -/
def Work.write (w : Work) (tag : Byte) (value : Bytes) (rest : List ActionInst) : Work :=
  { w with output := w.output ++ [{ tag := tag, value := value }], size := w.size + 2 + value.length, todo := rest }

/-- The fields written so far, each as tag, length and value (R41, R82). -/
def fieldBytes (fs : List Field) : Bytes := fs.flatMap fun f => [f.tag, byteOf f.value.length] ++ f.value

/-- The 12 bytes of a STAMP (R84). -/
def Work.stamp (w : Work) : Bytes :=
  be32 w.run.toNat ++ be32 w.seq.toNat ++ [byteOf w.attempt, byteOf w.line.val, byteOf w.recipe.val, 0]

/-- The 16-byte blocks of a field. -/
def blocksOf (bs : Bytes) : List Block := takeBlocks (bs.length / 16) bs

/-- A REWRAP source length (R40). -/
def rewrapLength (n : Nat) : Bool := decide (n = 16) || decide (n = 32) || decide (n = 48) || decide (n = 64)

/-- The engine asks for one use of a slot and, when it is granted, waits for a step under the key; otherwise the record fails
with the refusal's reason (R92 step 4, R20). -/
def requestStep (w : Work) (slot : Option SlotNo) (u : UseKind) (next : Block → Waiting × CipherStep) (s : State) :
    WalkEnd × State :=
  match slot with
  | none => (.fails w .keyUnavailable, s)
  | some n =>
    match requestUse n u s with
    | (.error reason, t) => (.fails w reason, t)
    | (.ok key, t) => (.waits { w with waiting := (next key).1 } (next key).2, t)

/-- The master slot of the record's run (R85). -/
def State.masterOf (s : State) (w : Work) : Option SlotNo := (s.run w.run).map Run.master

/-- The prep slot of the record's run (R86). -/
def State.prepOf (s : State) (w : Work) : Option SlotNo := (s.run w.run).bind Run.prep

/-- The walk over the instances still to come: the tests of R92 in order, to the first cipher step, failure or the end. -/
def walk : List ActionInst → Work → State → WalkEnd × State
  | [], w, s => (.completes { w with todo := [] }, s)
  | a :: rest, w0, s =>
    let w := { w0 with todo := a :: rest }
    match a.kind with
    | .stamp =>
      if w.oversize 12 then (.fails w .outputOversize, s) else walk rest (w.write a.result w.stamp rest) s
    | .outTag =>
      if w.oversize 8 then (.fails w .outputOversize, s)
      else
        requestStep w (some w.keySlot) .wrap
          (fun key => (.outTag (TagJob.start key (fieldBytes w.output)), (TagJob.start key (fieldBytes w.output)).step)) s
    | .copy =>
      match w.source a.source with
      | none => if a.optional then walk rest w s else (.fails w .missingField, s)
      | some v => if w.oversize v.length then (.fails w .outputOversize, s) else walk rest (w.write a.result v rest) s
    | .derive =>
      match w.source a.source with
      | none => if a.optional then walk rest w s else (.fails w .missingField, s)
      | some v =>
        if !validIdentity v then (.fails w .badIdentity, s)
        else if w.oversize 19 then (.fails w .outputOversize, s)
        else
          requestStep w (s.masterOf w) .derivation
            (fun key =>
              (.deriveKey (derivationBlock v a.variant), { fn := .enc, key := key, block := derivationBlock v a.variant })) s
    | .rewrap =>
      match w.source a.source with
      | none => if a.optional then walk rest w s else (.fails w .missingField, s)
      | some v =>
        if !rewrapLength v.length then (.fails w .badLength, s)
        else if w.oversize v.length then (.fails w .outputOversize, s)
        else
          requestStep w (s.prepOf w) .unwrap
            (fun key => (.unwrap [] (blocksOf v).tail, { fn := .dec, key := key, block := (blocksOf v).headD 0 })) s

/-- The instance in progress is written and the walk goes on. -/
def finishInstance (value : Bytes) (w : Work) (s : State) : WalkEnd × State :=
  match w.todo with
  | [] => walk [] w s
  | a :: rest => walk rest (w.write a.result value rest) s

/-- The result of the step the record waits for is taken and the walk continues (R39, R40, R41, R92). -/
def resume (v : Block) (w : Work) (s : State) : WalkEnd × State :=
  match w.waiting with
  | .deriveKey dblk =>
    requestStep w (some w.keySlot) .wrap (fun key => (.deriveWrap (v ^^^ dblk), { fn := .enc, key := key, block := v ^^^ dblk })) s
  | .deriveWrap cardKey => (.waits { w with waiting := .deriveCheck v } (checkStep cardKey), s)
  | .deriveCheck wrapped => finishInstance (bytesOfBlock wrapped ++ be24 (checkOfBlock v).toNat) w s
  | .unwrap written rest =>
    requestStep w (some w.keySlot) .wrap (fun key => (.wrap written rest, { fn := .enc, key := key, block := v })) s
  | .wrap written [] => finishInstance (written ++ bytesOfBlock v) w s
  | .wrap written (c :: rest) =>
    requestStep w (s.prepOf w) .unwrap
      (fun key => (.unwrap (written ++ bytesOfBlock v) rest, { fn := .dec, key := key, block := c })) s
  | .outTag job =>
    if job.isLast then finishInstance (bytesOfTag (truncateTag v)) w s
    else (.waits { w with waiting := .outTag (job.next v) } (job.next v).step, s)

/-! ### Completion, failure, abort (R93, R95, R96) -/

/-- The body of a card frame (R82). -/
def Work.cardBody (w : Work) : Bytes :=
  be32 w.run.toNat ++ be32 w.seq.toNat ++ [byteOf w.attempt, byteOf w.line.val] ++ fieldBytes w.output

/-- The card frame of a complete record (R82). -/
def State.cardFrame (s : State) (w : Work) : Bytes :=
  sealFrame (frameHeader kindCard s.link.address w.cardBody.length s.time.millis ++ w.cardBody)

/-- A position goes OUT on a line (R62 steps 1 to 3). -/
def Position.goOut (p : Position) (l : LineNo) (now : Word) : Position :=
  { p with state := .out, prior := none, attempt := p.attempt + 1, line := some l, dispatched := some now }

/-- A run's books for a card that goes out: its STAGED position and the issue counters (R62). -/
def Run.goOut (r : Run) (o : Nat) (l : LineNo) (now : Word) : Run :=
  match r.position o with
  | none => r
  | some p =>
    if p.state = .staged then
      { r.setPosition o (some (p.goOut l now)) with
        issues := if p.attempt = 0 then r.issues + 1 else r.issues
        reissues := if p.attempt = 0 then r.reissues else r.reissues + 1 }
    else r

/-- A record is complete: its card frame goes to the reserved line, its position goes OUT, and the engine is IDLE (R93, R62, R115).
Beside a frame whose sending has begun, kept to its end after its card lapsed (R116), eight more may wait: nine in all, the model's
choice (log 37). -/
def completeRecord (w : Work) (s : State) : State :=
  let x := s.line w.line
  let card : CardFrame := { run := w.run, seq := w.seq, frame := s.cardFrame w }
  let s1 := { s with engine := none }.setLine w.line { x with transmit := x.transmit ++ [card] }
  closeTest w.run (s1.updateRun w.run fun r => r.goOut (r.offset w.seq) w.line s.time.millis)

/-- The number of the action whose instance is in progress or comes next (R95, R96). -/
def Work.actionNumber (w : Work) : Nat :=
  match w.todo with
  | [] => 0
  | a :: _ => a.action

/-- A FAILURE notice: run, sequence number, action number in one byte, the model's choice (log 33), reason (R95). -/
def offerFailure (w : Work) (reason : FailReason) (s : State) : State :=
  offer .failure reason.code (be32 w.run.toNat ++ be32 w.seq.toNat ++ [byteOf w.actionNumber, reason.code]) s

/-- A record fails: the reservation is released, the position returns to its prior state, a FAILURE notice is offered, and the
engine is IDLE (R95, R63). -/
def failRecord (w : Work) (reason : FailReason) (s : State) : State :=
  let x := s.line w.line
  let s1 := { s with engine := none }.setLine w.line { x with occupied := x.occupied - 1 }
  let s2 := s1.updateRun w.run fun r => r.mapPosition (r.offset w.seq) Position.unstage
  closeTest w.run (offerFailure w reason s2)

/-- What the end of an event's walk does to the unit. -/
def endWalk (e : WalkEnd × State) : State :=
  match e.1 with
  | .waits w c => { e.2 with engine := some w, core := { e.2.core with engineWaits := some c } }
  | .fails w reason => failRecord w reason e.2
  | .completes w => completeRecord w e.2

/-- A suspension or a zeroisation aborts the record in the engine (R96). -/
def abortRecord (s : State) : State :=
  match s.engine with
  | none => s
  | some w => failRecord w .aborted s.discardEngineStep

/-! ### Eligibility and the take (R90, R91, R114) -/

/-- The lines a run may be sent to now (R114). -/
def State.openLines (s : State) (g : GroupNo) : List LineNo := (List.finRange 8).filter fun l => s.inGroup g l && s.dispatchable l

/-- Of two lines, the one with the least occupied credit, the first on a tie (R114). -/
def State.betterLine (s : State) (a b : LineNo) : LineNo := if (s.line b).occupied < (s.line a).occupied then b else a

/-- The dispatch arbiter's choice (R114). -/
def State.chooseLine (s : State) (g : GroupNo) : Option LineNo :=
  match s.openLines g with
  | [] => none
  | l :: rest => some (rest.foldl s.betterLine l)

/-- The records of a run are eligible (R90). -/
def State.runEligible (s : State) (r : Run) : Bool :=
  decide (r.state = .live) && decide (s.store.custody = .operational) && !s.suspended && s.keysUsable r &&
    !(s.openLines r.group).isEmpty

/-- A staged record is eligible (R90). -/
def State.eligible (s : State) (x : StagedRecord) : Bool :=
  match s.run x.run with
  | none => false
  | some r => s.runEligible r

/-- The attempt a card will go out as (R91 step 3). -/
def Run.nextAttempt (r : Run) (seq : Word) : Nat :=
  match r.position (r.offset seq) with
  | none => 1
  | some p => p.attempt + 1

/-- The engine's record at a take (R89, R91). No step is waited for yet, so `waiting` stands at an arbitrary value until the walk,
in the same event, reaches a step. -/
def takeWork (x : StagedRecord) (r : Run) (l : LineNo) (key : SlotNo) : Work :=
  { run := x.run, seq := x.seq, fields := x.fields, line := l, keySlot := key, attempt := r.nextAttempt x.seq, recipe := r.recipe,
    todo := [], output := [], size := 10, waiting := .deriveKey 0 }

/-- A record is taken to a line and its walk begins (R91). -/
def takeRecord (x : StagedRecord) (r : Run) (l : LineNo) (key : SlotNo) (s : State) : State :=
  let y := s.line l
  let s1 := s.setLine l { y with occupied := y.occupied + 1 }
  let s2 := { s1 with runs := { s1.runs with staging := s1.runs.staging.erase x } }
  endWalk (walk (expandRecipe ((s.recipe r.recipe).getD [])) (takeWork x r l key) s2)

/-- The oldest eligible record with its run, line and line key slot. -/
def State.nextTake (s : State) : Option (StagedRecord × Run × LineNo × SlotNo) :=
  match s.runs.staging.find? s.eligible with
  | none => none
  | some x =>
    match s.run x.run with
    | none => none
    | some r =>
      match s.chooseLine r.group with
      | none => none
      | some l => (s.line l).keySlot.map fun key => (x, r, l, key)

/-- An IDLE engine takes the oldest eligible record, and the next when a walk ends in the same event (R91). -/
def takeLoop : Nat → State → State
  | 0, s => s
  | n + 1, s =>
    if s.engine.isSome then s
    else
      match s.nextTake with
      | none => s
      | some (x, r, l, key) => takeLoop n (takeRecord x r l key s)

/-- Every take the event allows: each removes a record from the Staging Queue (R91). LINE notices of a use that spends a slot follow
those of the effect before the take, the model's choice (log 41). -/
def engineTake (s : State) : State := takeLoop s.runs.staging.length s

/-- What an event that may make a record eligible ends with (R91, R32). -/
def settleUnit (s : State) : State := settleCore (engineTake s)

end Sys2Proof.Machine
end

