-- ==== Sys2Proof/Machine/Store.lean ====
section
/-! DEFINITION. What the Key Store does on its own account (chapter 1): the screen (R5), assembly lapses (R14), the slot verify (R24),
dormancy (R25), zeroisation (R27, R28). -/

namespace Sys2Proof.Machine

/-! ### The screen (R5) -/

/-- The store's conditions in the order of R5; the third is looked at for the loading orders alone. -/
def State.screen (s : State) (loading : Bool) : Except OrderResult Unit :=
  if s.isSettling then .error .settling
  else if s.busy then .error .busy
  else if loading && s.suspended then .error .suspended
  else .ok ()

/-! ### Assembly lapses (R14, R25, R30) -/

/-- The slot whose assembly a LOAD COMPONENT in hand is working on: what would empty it reaches it at that order's end (R42). -/
def State.loadingSlot (s : State) : Option SlotNo :=
  match s.order.hand.map OrderInHand.handling with
  | some (.loading l) =>
    match l.kind with
    | .component n _ _ => some n
    | .whole _ _ _ _ _ => none
  | _ => none

/-- The number of components a slot has been given. -/
def Slot.loaded (k : Slot) : Nat := (k.components.getD []).length

/-- An ASSEMBLING slot becomes EMPTY with its KEY notice ASSEMBLY LAPSED (R14). The notice carries the number of components loaded in
one byte, the model's choice (log 33). -/
def lapseAssembly (n : SlotNo) (s : State) : State :=
  offerKey .assemblyLapsed [byteOf n.val, byteOf (s.slot n).loaded] (s.emptySlot n)

/-- Every ASSEMBLING slot lapses: in ascending slot order at main restore and warm reset (R30, R183); the same order at entry into
DORMANT is the model's choice, for R25 states none (log 32). -/
def lapseAssemblies (s : State) : State :=
  (List.finRange 64).foldl
    (fun t n => if (t.slot n).state = .assembling ∧ t.loadingSlot ≠ some n then lapseAssembly n t else t) s

/-! ### The slot verify (R24) -/

/-- A slot a verify visits (R24). -/
def Slot.visited (k : Slot) : Bool := decide (k.state = .active) || decide (k.state = .retired)

/-- The first slot a verify visits at or above a number (R24). -/
def State.nextVisit (s : State) (start : Nat) : Option SlotNo :=
  (List.finRange 64).find? fun n => decide (start ≤ n.val) && (s.slot n).visited

/-- A slot verify completes: with cause WAKE the unit becomes OPERATIONAL (R26); a KEY notice VERIFIED is offered (R24). -/
def finishVerify (cause : VerifyCause) (damaged : Nat) (s : State) : State :=
  let s1 := { s with store := { s.store with verify := none } }
  let s2 :=
    match cause with
    | .restore => s1
    | .wake => (s1.setCustody .operational).readyCopies.startIdle
  offerKey .verified [cause.code, byteOf damaged] s2

/-- A slot verify goes on at the first slot to visit at or above a number, or completes (R24). -/
def visitFrom (cause : VerifyCause) (damaged start : Nat) (s : State) : State :=
  match s.nextVisit start with
  | none => finishVerify cause damaged s
  | some n => { s with store := { s.store with verify := some { cause := cause, slot := n, damaged := damaged } } }

/-- A slot verify begins (R24). -/
def beginVerify (cause : VerifyCause) (s : State) : State := visitFrom cause 0 0 s

/-- A visited slot whose check value differs becomes DAMAGED, with its notices and its report (R24, R23). -/
def damageSlot (n : SlotNo) (s : State) : State :=
  let s1 := offerKey .damaged [byteOf n.val] (s.setSlot n { s.slot n with state := .damaged })
  lineNotices s (s1.reportUnusable n)

/-- The check value of the visited slot has been computed (R24). -/
def verifySlot (v : Verify) (result : Block) (s : State) : State :=
  if (s.slot v.slot).check = some (checkOfBlock result) then visitFrom v.cause v.damaged (v.slot.val + 1) s
  else visitFrom v.cause (v.damaged + 1) (v.slot.val + 1) (damageSlot v.slot s)

/-- A verify that waited for a scrub begins at the scrub's end (R6, R183). -/
def releaseVerify (s : State) : State :=
  if s.store.verifyWaits then beginVerify .restore { s with store := { s.store with verifyWaits := false } } else s

/-! ### Dormancy (R25) -/

/-- Entry into DORMANT (R25). -/
def enterDormant (s : State) : State := offerKey .dormant [] (lapseAssemblies (s.setCustody .dormant).discardCopies)

/-! ### Zeroisation (R27, R28) -/

/-- The order in hand when a zeroisation comes: a comparison or check in progress is discarded and an order not yet decided awaits an
untagged decision in ZEROISED (R140); a load's results will be discarded (R42). -/
def OrderInHand.afterZeroise (h : OrderInHand) : OrderInHand :=
  { h with
    handling :=
      match h.handling with
      | .unmatched => .untagged
      | .comparing _ _ => .untagged
      | .checking _ => .untagged
      | .screened => .untagged
      | .loading l => .loading { l with zeroised := true }
      | x => x }

/-- The Order Unit at a zeroisation: the comparison or check in progress is discarded, the gate emptied (R27, R140). -/
def zeroiseOrder (s : State) : State :=
  let s1 :=
    match s.order.hand.map OrderInHand.handling with
    | some (.comparing _ _) => s.discardUser .order
    | some (.checking _) => s.discardUser .load
    | _ => s
  let s2 := s1.emptyGate
  { s2 with order := { s2.order with hand := s2.order.hand.map OrderInHand.afterZeroise } }

/-- Every slot becomes EMPTY with its lock cleared; the order number, the suspend set, the copies and a verify go with the keys; the
scrub of all key storage begins (R27, R28). -/
def zeroiseStore (s : State) : State :=
  let s1 := s.discardUser .verify
  { s1 with
    store := { s1.store with
      slots := Vector.replicate 64 (Slot.blank false)
      lastOrder := 0
      suspend := Vector.replicate 6 false
      scrub := some .zeroise
      verify := none
      working := Vector.replicate 64 false } }

/-- The runs that named a general slot which became EMPTY gain KEY (R27, R23, R46; for a CLOSING run log 21). -/
def reportZeroised (was s : State) : State :=
  (List.finRange 64).foldl
    (fun t n => if 7 ≤ n.val ∧ (was.slot n).state ≠ .empty then t.reportUnusable n else t) s

/-- A zeroisation on battery sets the battery-zeroisation mark (R181). -/
def markBattery (s : State) : State :=
  if s.power.supply = .battery then { s with power := { s.power with batteryZeroised := true } } else s

/-- Zeroisation (R27): the store's effects, the KEY hold of runs, the LINE notices, the abort of a record in the engine. The TAMPER
notice has been offered before it. -/
def zeroise (s : State) : State :=
  let s1 := markBattery ((zeroiseStore (zeroiseOrder s)).setCustody .zeroised)
  abortRecord (lineNotices s (reportZeroised s s1))

/-- A further trip of a zeroising sensor in ZEROISED: the scrub pass begins again, or anew (R28, R157). -/
def scrubAgain (s : State) : State := { s with store := { s.store with scrub := some .zeroise } }

end Sys2Proof.Machine
end

