-- ==== Sys2Proof/Machine/Tamper.lean ====
section
/-! DEFINITION. The Tamper Monitor (chapter 8): the tamper record, qualification, trips and their actions, releases, the maintenance
window. -/

namespace Sys2Proof.Machine

/-- An event is entered in the tamper record, or counted in the overflow count, and counted in the event counter (R163). -/
def State.enterTamper (s : State) (source : TamperSource) (action : TamperAction) : State :=
  let entry : TamperEntry :=
    { source := source, seconds := s.time.seconds.value, millis := if s.mainUp then some (s.time.millis.setWidth 16) else none,
      action := action, before := s.store.custody }
  { s with
    tamper := { s.tamper with
      record := if s.tamper.record.length < 8 then s.tamper.record ++ [entry] else s.tamper.record
      overflow := if s.tamper.record.length < 8 then s.tamper.overflow else bumpCounter max8 s.tamper.overflow
      events := bumpCounter max8 s.tamper.events } }

/-- A TAMPER notice: source, action, seconds, low 16 bits of the millisecond counter, custody state, and
a flag byte, 01H for an event entered and 00H for one only counted, the model's choice (R156; log 35). -/
def offerTamper (source : TamperSource) (action : TamperAction) (entered : Bool) (s : State) : State :=
  offer .tamper source.code
    ([source.code, action.code] ++ be32 s.time.seconds.value ++ be16 (s.time.millis.toNat % 65536) ++
      [s.store.custody.code, flagByte entered]) s

/-- A trip while main power is off is counted for the POWER notice (R167). -/
def State.countBatteryTrip (s : State) : State :=
  if s.power.supply = .battery then
    { s with tamper := { s.tamper with batteryTrips := bumpCounter max8 s.tamper.batteryTrips } }
  else s

/-- The status a trip leaves a sensor in (R157). -/
def Sensor.tripped (x : Sensor) : Sensor :=
  { x with
    timer := none
    status :=
      match x.action, x.mode with
      | .zeroise, _ => .latched
      | .suspend, .latched => .latched
      | .suspend, .transient => .tripped }

/-- The action of a tripping sensor (R157). -/
def applyAction (i : SensorNo) (s : State) : State :=
  let x := s.sensor i
  let s1 := s.setSensor i x.tripped
  match x.action with
  | .zeroise => if s.store.custody = .zeroised then scrubAgain s1 else zeroise s1
  | .suspend => abortRecord (s1.setCause i true)

/-- A sensor trips (R156). -/
def trip (i : SensorNo) (s : State) : State :=
  let x := s.sensor i
  let s1 := ((s.enterTamper (.sensor i) x.action).countBatteryTrip).emptyGate
  applyAction i (offerTamper (.sensor i) x.action (decide (s.tamper.record.length < 8)) s1)

/-- A sensor begins qualifying, or trips at once with qualification 0 (R155). -/
def beginQualify (i : SensorNo) (s : State) : State :=
  let x := s.sensor i
  if x.qualification = 0 then trip i s
  else s.setSensor i { x with status := .qualifying, timer := some x.qualification }

/-- An enabled sensor whose input is active and that is not held off (R155). -/
def State.armed (s : State) (i : SensorNo) : Bool := (s.sensor i).enable && (s.sensor i).active && !s.heldOff i

/-- A sensor that is IDLE begins qualifying if it is armed (R155, R160, R162). -/
def considerSensor (i : SensorNo) (s : State) : State :=
  if (s.sensor i).status = .idle ∧ s.armed i = true then beginQualify i s else s

/-- A tripped sensor returns to IDLE and its cause leaves the suspend set (R158, R159). -/
def releaseSensor (i : SensorNo) (s : State) : State :=
  (s.setSensor i { s.sensor i with status := .idle, timer := none }).setCause i false

/-- A LATCHED sensor whose input is inactive, which RESUME and ACK TAMPER release (R159, R166). -/
def State.releasable (s : State) (i : SensorNo) : Bool := decide ((s.sensor i).status = .latched) && !(s.sensor i).active

/-- Every LATCHED sensor whose input is inactive is released (R159, R166). -/
def releaseLatched (s : State) : State :=
  (List.finRange 6).foldl (fun t i => if t.releasable i then releaseSensor i t else t) s

/-- The maintenance window closes, and S0 is no longer held off (R162). -/
def closeWindow (s : State) : State := considerSensor 0 { s with tamper := { s.tamper with window := none } }

/-- The tamper record is emptied with its overflow count (R166). -/
def clearRecord (s : State) : State := { s with tamper := { s.tamper with record := [], overflow := .zero } }

end Sys2Proof.Machine
end

