-- ==== Sys2Proof/Machine/Operands.lean ====
section
/-! DEFINITION. Every operand form of the orders (12.2, R189): how a parameter's bytes are read, with the refusal that a value out of
its list gives. -/

namespace Sys2Proof.Machine

/-- A check of an order: it holds, or the order is refused with this result. -/
def need (holds : Bool) (r : OrderResult) : Except OrderResult Unit := if holds then .ok () else .error r

/-- A number read from a place in the parameters. -/
def numAt (ps : Bytes) (start width : Nat) : Nat := natOfBytes (sliceBytes ps start width)

/-- A word read from a place in the parameters. -/
def wordAt (ps : Bytes) (start : Nat) : Word := wordOfBytes (sliceBytes ps start 4)

/-- A slot number: 64 to FFH is NO SUCH (R2, R189). -/
def slotOf (b : Byte) : Except OrderResult SlotNo :=
  if h : b.toNat < 64 then .ok ⟨b.toNat, h⟩ else .error .noSuch

/-- A general slot: above 63 NO SUCH, 0 to 6 RANGE (R2, step 1 of R11). -/
def generalSlotOf (b : Byte) : Except OrderResult SlotNo := do
  let n ← slotOf b
  need (decide (7 ≤ n.val)) .range
  pure n

/-- A slot parameter that may be none, FFH (12.2). -/
def slotOrNone (b : Byte) : Except OrderResult (Option SlotNo) :=
  if b = 0xFF then .ok none else (slotOf b).map some

/-- A key class (12.2). -/
def classOf (b : Byte) : Except OrderResult KeyClass :=
  match keyClassOf b with
  | none => .error .range
  | some c => .ok c

/-- A flag byte (R189). -/
def flagOf (b : Byte) : Except OrderResult Bool :=
  if b = 0 then .ok false else if b = 1 then .ok true else .error .range

/-- A line number: above 7 NO SUCH (R106, R110, R112, R119). -/
def lineOf (b : Byte) : Except OrderResult LineNo :=
  if h : b.toNat < 8 then .ok ⟨b.toNat, h⟩ else .error .noSuch

/-- A group: other than A to D RANGE (R47, R107). -/
def groupOf (b : Byte) : Except OrderResult GroupNo :=
  if h : b.toNat < 4 then .ok ⟨b.toNat, h⟩ else .error .range

/-- A recipe number: above 31 NO SUCH (R80, R81). -/
def recipeOf (b : Byte) : Except OrderResult RecipeNo :=
  if h : b.toNat < 32 then .ok ⟨b.toNat, h⟩ else .error .noSuch

/-- A sensor number: above 5 NO SUCH (R160). -/
def sensorOf (b : Byte) : Except OrderResult SensorNo :=
  if h : b.toNat < 6 then .ok ⟨b.toNat, h⟩ else .error .noSuch

/-- A known run, with its record (R44). -/
def State.knownRun (s : State) (n : Word) : Except OrderResult Run :=
  match s.run n with
  | none => .error .noSuch
  | some r => .ok r

/-- A line key slot parameter: steps 2 to 4 of R106. -/
def State.lineKeyOf (s : State) (b : Byte) : Except OrderResult (Option SlotNo) :=
  if b = 0xFF then .ok none
  else do
    let n ← generalSlotOf b
    need (decide ((s.slot n).state ≠ .empty)) .noSuch
    need (decide ((s.slot n).cls = some .line)) .range
    pure (some n)

/-- A credit limit: 0 RANGE, above 8 taken as 8 (R104). -/
def creditOf (b : Byte) : Except OrderResult Nat := do
  need (decide (b.toNat ≠ 0)) .range
  pure (min b.toNat 8)

/-- A set of groups: a bit above 3 is RANGE (R189). -/
def groupSetOf (b : Byte) : Except OrderResult (BitVec 4) := do
  need (decide (b.toNat < 16)) .range
  pure (b.setWidth 4)

/-- A polarity byte (12.2). -/
def polarityOf (b : Byte) : Except OrderResult Polarity :=
  if b = 0 then .ok .activeHigh else if b = 1 then .ok .activeLow else .error .range

/-- A mode byte (12.2). -/
def modeOf (b : Byte) : Except OrderResult SensorMode :=
  if b = 0 then .ok .latched else if b = 1 then .ok .transient else .error .range

/-- An action byte (12.2). -/
def tamperActionOf (b : Byte) : Except OrderResult TamperAction :=
  if b = 0 then .ok .zeroise else if b = 1 then .ok .suspend else .error .range

/-- A sensor configuration of six bytes, written into a sensor record (R160, 12.2). -/
def configure (x : Sensor) (ps : Bytes) : Except OrderResult Sensor := do
  let enable ← flagOf (byteAt ps 0)
  let polarity ← polarityOf (byteAt ps 1)
  let mode ← modeOf (byteAt ps 2)
  let action ← tamperActionOf (byteAt ps 3)
  let masked ← flagOf (byteAt ps 5)
  pure
    { x with
      enable := enable, polarity := polarity, mode := mode, action := action, qualification := (byteAt ps 4).toNat,
      alarmMasked := masked }

/-- An action record of seven bytes (12.2), its repeat as given: kind and optional are checked here (R80 step 4). -/
def actionOf (bs : Bytes) : Except OrderResult Action :=
  match actionKindOf (byteAt bs 0) with
  | none => .error .range
  | some kind => do
    let optional ← flagOf (byteAt bs 6)
    pure
      { kind := kind, source := (byteAt bs 1).toNat, result := (byteAt bs 2).toNat, repeats := (byteAt bs 3).toNat,
        variant := BitVec.ofNat 16 (numAt bs 4 2), optional := optional }

/-- So many action records of seven bytes (R80). -/
def actionsOf : Nat → Bytes → Except OrderResult (List Action)
  | 0, _ => .ok []
  | n + 1, bs => do
    let a ← actionOf bs
    let rest ← actionsOf n (bs.drop 7)
    pure (a :: rest)

end Sys2Proof.Machine
end

