-- ==== Sys2Proof/Machine/Orders.lean ====
section
/-! DEFINITION. The Order Unit (chapter 7): the order in hand, authentication (R138, R139), the checks of R140, the classes and the gate
(R143 to R148), broadcasts (R150), the answer (R151). Each order's own rule is a `take` in its family's file. -/

namespace Sys2Proof.Machine

/-! ### The order in hand -/

/-- The order number (R137). -/
def OrderInHand.number (h : OrderInHand) : Word := wordOfBytes (sliceBytes h.header 4 4)

/-- The order code, 00H when the body is too short to carry one beside its tag (R151, R190; log 18). -/
def OrderInHand.code (h : OrderInHand) : Byte := if h.body.length < 9 then 0 else byteAt h.body 0

/-- The bytes between the order code and the tag (R189). -/
def OrderInHand.params (h : OrderInHand) : Bytes := sliceBytes h.body 1 (h.body.length - 9)

/-- The tag an order carries: the last 8 bytes of its body (R137). -/
def OrderInHand.carriedTag (h : OrderInHand) : Tag := BitVec.ofNat 64 (natOfBytes (h.body.drop (h.body.length - 8)))

/-- The message an order's tag covers (R36). -/
def OrderInHand.message (h : OrderInHand) : Bytes := h.header ++ h.body.take (h.body.length - 8)

/-- The slot whose key authenticates an order, none when it fails without a comparison (R138). -/
def authSlot (body : Bytes) : Option SlotNo :=
  if body.length < 8 then none
  else if 9 ≤ body.length ∧ byteAt body 0 = 0x02 then
    if 10 ≤ body.length then
      if h : 1 ≤ (byteAt body 1).toNat ∧ (byteAt body 1).toNat ≤ 6 then some ⟨(byteAt body 1).toNat, by omega⟩ else none
    else none
  else some 0

/-- How a directed order is authenticated: its tag is computed under the key of its slot, or it fails without a comparison (R138). -/
def State.authentication (s : State) (header body : Bytes) : Handling :=
  match authSlot body with
  | none => .unmatched
  | some n =>
    match s.activeKey n with
    | none => .unmatched
    | some key => .comparing n (TagJob.start key (header ++ body.take (body.length - 8)))

/-! ### Classes and the gate (R143 to R147) -/

/-- What an order needs at the gate (R143). -/
inductive OrderClass where
  | plain
  | grant
  | single
  | dual
  deriving DecidableEq, Repr

/-- The gate satisfies a class for an order of this number (R146, R147). -/
def Gate.satisfies (g : Gate) (number : Word) : OrderClass → Bool
  | .plain | .grant => true
  | .single =>
    match g.grants.getLast? with
    | none => false
    | some x => decide (x.target = number)
  | .dual =>
    match g.grants with
    | [a, b] => decide (a.target = number) && decide (b.target = number) && decide (a.custodian ≠ b.custodian)
    | _ => false

/-- The granting custodian: that of the latest grant (R146). -/
def Gate.custodian (g : Gate) : Nat :=
  match g.grants.getLast? with
  | none => 0
  | some x => x.custodian

/-! ### What an order's own rule gives -/

/-- What an order brings to its own rule. -/
structure OrderArgs where
  number : Word
  custodian : Nat
  params : Bytes
  deriving DecidableEq, Repr

/-- What an order's own rule makes of it: a result with reported values, or cipher steps to wait for (R42). -/
inductive Taken where
  | answered (result : OrderResult) (values : Bytes) (s : State)
  | held (load : Load) (s : State)

/-- A refusal that changes nothing (R152). -/
def refused (r : OrderResult) (s : State) : Taken := .answered r [] s

/-- An order whose checks give what it acts on, or refuse it. -/
def checked {α : Type} (e : Except OrderResult α) (s : State) (k : α → Taken) : Taken :=
  match e with
  | .error r => refused r s
  | .ok a => k a

/-- An order's place in the catalogue (7.8): its code, whether the unit knows it, the parameter bytes it calls for, its class, the
custody states that pass it, and its own rule. -/
structure OrderRule where
  matching : Byte → Bool
  known : Bool
  fits : Bytes → Bool
  cls : OrderClass
  passed : Custody → Bool
  take : OrderArgs → State → Taken

/-- Passed in OPERATIONAL alone (7.8). -/
def passWorking (c : Custody) : Bool := decide (c = .operational)

/-- Passed in OPERATIONAL and DORMANT (7.8). -/
def passReads (c : Custody) : Bool := decide (c = .operational) || decide (c = .dormant)

/-- Passed in FACTORY (R141). -/
def passFactory (c : Custody) : Bool := decide (c = .factory)

/-- Passed in every custody state (R141). -/
def passAll (_ : Custody) : Bool := true

/-- An order of a known code with a fixed number of parameter bytes. -/
def knownOrder (code : Byte) (width : Nat) (cls : OrderClass) (passed : Custody → Bool) (take : OrderArgs → State → Taken) :
    OrderRule :=
  { matching := fun b => b == code, known := true, fits := fun ps => decide (ps.length = width), cls := cls, passed := passed,
    take := take }

/-- The refusal for a custody state that does not admit the order (R141). -/
def custodyRefusal (c : Custody) : OrderResult := if c = .dormant then .dormant else .notPermitted

/-- Steps 1 to 3 of R140. -/
def OrderRule.screen (rule : OrderRule) (h : OrderInHand) (s : State) : Except OrderResult Unit := do
  need rule.known .noSuch
  need (rule.fits h.params) .range
  need (rule.passed s.store.custody) (custodyRefusal s.store.custody)

/-- Steps 1 and 2 of R140 and the custody check of an order handled without a tag: already passed when it was handed over in FACTORY
or ZEROISED (R141), made at its decision otherwise (R140, R150). -/
def OrderRule.verdict (rule : OrderRule) (h : OrderInHand) (s : State) : Except OrderResult Unit :=
  match h.handling with
  | .screened => .ok ()
  | .checking _ => .ok ()
  | _ => rule.screen h s

/-- What an order brings to its rule. -/
def State.argsOf (s : State) (h : OrderInHand) : OrderArgs :=
  { number := h.number, custodian := s.order.gate.custodian, params := h.params }

/-! ### The answer (R151) -/

/-- Header and body of an answer without its tag (R151, 12.1). -/
def State.answerMessage (s : State) (h : OrderInHand) (r : OrderResult) (values : Bytes) : Bytes :=
  frameHeader kindAnswer s.link.address (values.length + 12) h.number ++ [h.code, r.code] ++ values ++ be16 s.summary.toNat

/-- A whole answer frame (R36, R123). -/
def answerFrame (message : Bytes) (tag : Tag) : Bytes := sealFrame (message ++ bytesOfTag tag)

/-- The answer is built: without a tag it enters the answer slot at once, with one when the tag has been computed (R151). -/
def buildAnswer (h : OrderInHand) (r : OrderResult) (values : Bytes) (zeroTag : Bool) (s : State) : State :=
  let message := s.answerMessage h r values
  match (if zeroTag then none else s.activeKey 0) with
  | none =>
    { s with order := { s.order with hand := some { h with handling := .answered }, answer := some (answerFrame message 0) } }
  | some key => { s with order := { s.order with hand := some { h with handling := .answering message (TagJob.start key message) } } }

/-- What becomes of the order in hand once its own rule has been applied. -/
def afterTake (h : OrderInHand) : Taken → State
  | .answered r values s => buildAnswer h r values false s
  | .held load s => { s with order := { s.order with hand := some { h with handling := .loading load } } }

/-! ### The decision (R138 to R141, R148, R150) -/

/-- The gate is dealt with: every accepted order empties it, but for a GRANT that entered it (R140, R148). -/
def dealWithGate (cls : OrderClass) : Taken → Taken
  | .answered r values s => .answered r values (if cls = .grant ∧ r = .done then s else s.emptyGate)
  | .held load s => .held load s.emptyGate

/-- An accepted order: its number is recorded, the idle timer started, and the checks of R140 made (R139, R140, R187). -/
def acceptOrder (rule : OrderRule) (h : OrderInHand) (s : State) : Taken :=
  let s1 := ({ s with store := { s.store with lastOrder := h.number } }).startIdle
  dealWithGate rule.cls
    (checked
      (do
        rule.screen h s1
        need (s1.order.gate.satisfies h.number rule.cls) .gate)
      s1 fun _ => rule.take (s1.argsOf h) s1)

/-- An order handled untagged in FACTORY or ZEROISED: no number, no gate (R141). -/
def takeUntagged (rule : OrderRule) (h : OrderInHand) (s : State) : Taken :=
  checked (rule.verdict h s) s fun _ => rule.take (s.argsOf h) s

/-- A result that reports an order carried out (R152). -/
def OrderResult.carriedOut (r : OrderResult) : Bool := decide (r = .done) || decide (r = .started) || decide (r = .clamped)

/-- A broadcast starts the idle timer when it is carried out, and not when it is refused (R187, R152). -/
def broadcastIdle : Taken → Taken
  | .answered r values s => .answered r values (if r.carriedOut then s.startIdle else s)
  | .held load s => .held load s

/-- A broadcast: no tag, no number, the gate left as it was (R150). -/
def takeBroadcast (rule : OrderRule) (h : OrderInHand) (s : State) : Taken :=
  checked (rule.screen h s) s fun _ => broadcastIdle (rule.take (s.argsOf h) s)

/-- The flag TAG is set (R133). -/
def State.flagTag (s : State) : State := { s with link := { s.link with upFlags := { s.link.upFlags with tag := true } } }

/-- The flag NUMBER is set (R133). -/
def State.flagNumber (s : State) : State := { s with link := { s.link with upFlags := { s.link.upFlags with number := true } } }

/-- The result of the step in the Core (R31). -/
def State.coreResult (s : State) : Block :=
  match s.core.work with
  | .idle => 0
  | .engine c _ => c.result
  | .keyStore k _ => k.step.result

/-- How an order stands at the event its row names. -/
inductive Standing where
  | broadcast
  | untagged
  | badTag
  | stale
  | accepted
  deriving DecidableEq, Repr

/-- The standing of the order in hand, none while it is not at the event of its decision: its tag's or its check's last step must
be the one the Core is performing (R138, R139, R141, R150). -/
def State.standing (s : State) (h : OrderInHand) : Option Standing :=
  match h.handling with
  | .untagged => some (if h.broadcast then .broadcast else .untagged)
  | .screened => some .untagged
  | .unmatched => some .badTag
  | .comparing n job =>
    if s.coreServes .order && job.isLast then
      if truncateTag s.coreResult = h.carriedTag ∧ (s.slot n).state = .active then
        if s.store.lastOrder < h.number then some .accepted else some .stale
      else some .badTag
    else none
  | .checking _ => if s.coreServes .load then some .untagged else none
  | .loading _ => none
  | .answering _ _ => none
  | .answered => none

/-- The step whose end is the event of the decision has ended: the Core's, when a tag was compared or a check value computed. -/
def State.endDecisionStep (s : State) (h : OrderInHand) : State :=
  match h.handling with
  | .comparing _ _ => s.endStep
  | .checking _ => s.endStep
  | _ => s

/-- The event of an order row: the order in hand, when its code is the row's and its decision is due, is decided and answered. -/
def decideOrder (rule : OrderRule) (s : State) : State :=
  match s.order.hand with
  | none => s
  | some h =>
    if !s.mainUp || !rule.matching h.code then s
    else
      let t := s.endDecisionStep h
      match s.standing h with
      | none => s
      | some .badTag => settleCore (buildAnswer h .badTag [] true t.flagTag)
      | some .stale => settleCore (buildAnswer h .staleNumber [] true t.flagNumber)
      | some .broadcast => settleCore (afterTake h (takeBroadcast rule h t))
      | some .untagged => settleCore (afterTake h (takeUntagged rule h t))
      | some .accepted => settleCore (afterTake h (acceptOrder rule h t))

end Sys2Proof.Machine
end

