-- ==== Sys2Proof/Machine/KeyOrders.lean ====
section
/-! DEFINITION. The orders of the Key Store (chapter 1; R10, R26, R27) and the end of a load (R42). Each order's own rule is its
`take`; its place in the catalogue is its rule; its row is its `exec`. -/

namespace Sys2Proof.Machine

/-! ### LOAD CLEAR, COMMISSION (R9, R10, R142) -/

/-- A slot of LOAD CLEAR: above 63 NO SUCH, above 6 RANGE (R2, R9). -/
def commissioningSlotOf (b : Byte) : Except OrderResult SlotNo := do
  let n ← slotOf b
  need (decide (n.val < 7)) .range
  pure n

/-- A slot loaded by LOAD CLEAR (R9); the lock is unchanged. -/
def Slot.loadedClear (k : Slot) (n : SlotNo) (key : Block) (check : Check) : Slot :=
  { Slot.blank k.lock with
    state := .active, cls := some (if n.val = 0 then .mgmt else .custodian), key := some key, check := some check }

/-- LOAD CLEAR (R9). The check value is the one the step that has just ended computed (R35). A slot found DAMAGED is loaded like any
other, the model's choice (log 31). -/
def takeLoadClear (contact : Bool) (a : OrderArgs) (s : State) : Taken :=
  let key := blockOfBytes (sliceBytes a.params 1 16)
  let check := checkOfBytes (sliceBytes a.params 17 3)
  checked
    (do
      need contact .notPermitted
      s.screen false
      let n ← commissioningSlotOf (byteAt a.params 0)
      need (decide (checkValue key = check)) .checkMismatch
      pure n)
    s fun n => .answered .done [] (s.setSlot n ((s.slot n).loadedClear n key check))

def loadClearRule (contact : Bool) : OrderRule := knownOrder 0x03 20 .plain passFactory (takeLoadClear contact)

/-- LOAD_CLEAR. -/
def execLoadClear (contact : Bool) (s : State) : Host.Outcome State Fault Refusal := .next (decideOrder (loadClearRule contact) s)

/-- The number of ACTIVE custodian slots (R10). -/
def State.activeCustodians (s : State) : Nat :=
  (List.finRange 64).countP fun n => decide (1 ≤ n.val) && decide (n.val ≤ 6) && decide ((s.slot n).state = .active)

/-- COMMISSION (R10). -/
def takeCommission (contact : Bool) (_ : OrderArgs) (s : State) : Taken :=
  checked
    (do
      need contact .notPermitted
      s.screen false
      need (decide ((s.slot 0).state = .active) && decide (2 ≤ s.activeCustodians)) .notPermitted)
    s fun _ => .answered .done [] (engineTake (s.setCustody .operational).startIdle)

def commissionRule (contact : Bool) : OrderRule := knownOrder 0x05 0 .plain passFactory (takeCommission contact)

/-- COMMISSION. -/
def execCommission (contact : Bool) (s : State) : Host.Outcome State Fault Refusal :=
  .next (decideOrder (commissionRule contact) s)

/-! ### Assembly (R11 to R13) -/

/-- A class that BEGIN KEY may name (R11 step 2). -/
def assembledClass (c : KeyClass) : Bool :=
  decide (c = .importing) || decide (c = .prep) || decide (c = .master) || decide (c = .line)

/-- A class that carries a label (R1). -/
def labelled (c : KeyClass) : Bool := decide (c = .prep) || decide (c = .master)

/-- The checks of BEGIN KEY (R11). -/
def checkBeginKey (ps : Bytes) (s : State) : Except OrderResult (SlotNo × KeyClass) := do
  s.screen true
  let n ← generalSlotOf (byteAt ps 0)
  let c ← classOf (byteAt ps 1)
  need (assembledClass c) .range
  need (decide ((byteAt ps 2).toNat = 2) || decide ((byteAt ps 2).toNat = 3)) .range
  need (!(s.slot n).lock) .locked
  need (decide ((s.slot n).state = .empty)) .exists
  pure (n, c)

/-- The slot BEGIN KEY makes (R11). -/
def assemblingSlot (k : Slot) (c : KeyClass) (ps : Bytes) (deadline : Word) : Slot :=
  { Slot.blank k.lock with
    state := .assembling, cls := some c, required := some (byteAt ps 2).toNat, components := some [], accumulator := some 0,
    expected := some (checkOfBytes (sliceBytes ps 3 3)), deadline := some deadline,
    label := if labelled c then some (wordAt ps 6) else none, ceiling := numAt ps 10 4 }

/-- BEGIN KEY (R11). -/
def takeBeginKey (a : OrderArgs) (s : State) : Taken :=
  checked (checkBeginKey a.params s) s fun p =>
    .answered .done [] (s.setSlot p.1 (assemblingSlot (s.slot p.1) p.2 a.params (s.after 600000)))

def beginKeyRule : OrderRule := knownOrder 0x10 14 .single passWorking takeBeginKey

/-- BEGIN_KEY. -/
def execBeginKey (s : State) : Host.Outcome State Fault Refusal := .next (decideOrder beginKeyRule s)

/-- A KEY notice SPENT for a slot whose use is refused at its ceiling (R12, R15, R21). The use counter is carried without its limit
flag, the model's choice (log 36). -/
def offerSpent (n : SlotNo) (s : State) : State :=
  offerKey .spent ([byteOf n.val] ++ be32 (s.slot n).uses.value ++ be32 (s.slot n).ceiling) s

/-- Steps 1 to 4 of R12: the assembling slot and the unwrapping slot. -/
def checkLoadComponent (custodian : Nat) (ps : Bytes) (s : State) : Except OrderResult (SlotNo × SlotNo) := do
  s.screen true
  let n ← generalSlotOf (byteAt ps 0)
  need (decide ((s.slot n).state = .assembling)) .noSuch
  let u ← slotOf (byteAt ps 1)
  need
    (if (s.slot n).cls = some .importing then decide (u.val = custodian)
      else decide (7 ≤ u.val) && decide ((s.slot u).cls = some .importing)) .range
  need (decide ((s.slot u).state = .active)) .noSuch
  pure (n, u)

/-- One more component completes the assembly of a slot (R12, R13). -/
def Slot.nextCompletes (k : Slot) : Bool := decide (k.required.getD 0 ≤ k.loaded + 1)

/-- LOAD COMPONENT: its checks, and the unwrap step it then waits for (R12, R42). -/
def takeLoadComponent (a : OrderArgs) (s : State) : Taken :=
  checked (checkLoadComponent a.custodian a.params s) s fun p =>
    if 7 ≤ p.2.val ∧ (s.slot p.2).underCeiling = false then .answered .notPermitted [] (offerSpent p.2 s)
    else if a.custodian ∈ (s.slot p.1).components.getD [] then refused .sameCustodian s
    else
      .held
        { kind := .component p.1 a.custodian (s.slot p.1).nextCompletes,
          stage := .unwrap p.2 ((s.slot p.2).key.getD 0) (blockOfBytes (sliceBytes a.params 2 16)),
          zeroised := false } s

def loadComponentRule : OrderRule := knownOrder 0x11 18 .single passWorking takeLoadComponent

/-- LOAD_COMPONENT. -/
def execLoadComponent (s : State) : Host.Outcome State Fault Refusal := .next (decideOrder loadComponentRule s)

/-! ### LOAD WRAPPED KEY (R15) -/

/-- A class that LOAD WRAPPED KEY may name (R15 step 2). -/
def wrappedClass (c : KeyClass) : Bool := decide (c = .importing) || decide (c = .prep) || decide (c = .line)

/-- Steps 1 to 6 of R15: the slot, its class and the IMPORT slot. -/
def checkLoadWrapped (ps : Bytes) (s : State) : Except OrderResult (SlotNo × KeyClass × SlotNo) := do
  s.screen true
  let n ← generalSlotOf (byteAt ps 0)
  let c ← classOf (byteAt ps 1)
  need (wrappedClass c) .range
  need (!(s.slot n).lock) .locked
  need (decide ((s.slot n).state = .empty)) .exists
  let u ← slotOf (byteAt ps 2)
  need (decide (7 ≤ u.val) && decide ((s.slot u).cls = some .importing)) .range
  need (decide ((s.slot u).state = .active)) .noSuch
  pure (n, c, u)

/-- LOAD WRAPPED KEY: its checks, and the unwrap step it then waits for (R15, R42). -/
def takeLoadWrapped (a : OrderArgs) (s : State) : Taken :=
  checked (checkLoadWrapped a.params s) s fun p =>
    if (s.slot p.2.2).underCeiling = false then .answered .notPermitted [] (offerSpent p.2.2 s)
    else
      .held
        { kind := .whole p.1 p.2.1 (checkOfBytes (sliceBytes a.params 19 3)) (numAt a.params 22 4) (wordAt a.params 26),
          stage := .unwrap p.2.2 ((s.slot p.2.2).key.getD 0) (blockOfBytes (sliceBytes a.params 3 16)),
          zeroised := false } s

def loadWrappedKeyRule : OrderRule := knownOrder 0x12 30 .single passWorking takeLoadWrapped

/-- LOAD_WRAPPED_KEY. -/
def execLoadWrappedKey (s : State) : Host.Outcome State Fault Refusal := .next (decideOrder loadWrappedKeyRule s)

/-! ### The end of a load (R13, R15, R42) -/

/-- The end of this step is the end of the load: its check value is computed, or a component that does not complete its assembly is
deciphered (R42). -/
def Load.ends (l : Load) : Bool :=
  match l.stage, l.kind with
  | .check _, _ => true
  | .unwrap _ _ _, .component _ _ last => !last
  | .unwrap _ _ _, .whole _ _ _ _ _ => false

/-- A KEY notice ACTIVE: slot, class, check value, label (R13, R15). -/
def offerActive (n : SlotNo) (s : State) : State :=
  offerKey .active
    ([byteOf n.val, (((s.slot n).cls.map KeyClass.code).getD 0)] ++ be24 ((s.slot n).check.getD 0).toNat ++
      optionalField 4 ((s.slot n).label.map fun x => be32 x.toNat)) s

/-- An assembled key (R13). -/
def Slot.assembled (k : Slot) (key : Block) (check : Check) : Slot :=
  { k with
    state := .active, key := some key, check := some check, components := none, accumulator := none, expected := none,
    deadline := none, uses := .zero }

/-- A key loaded whole (R15). -/
def wholeSlot (k : Slot) (c : KeyClass) (key : Block) (check : Check) (ceiling : Nat) (label : Word) : Slot :=
  { Slot.blank k.lock with
    state := .active, cls := some c, key := some key, check := some check, label := if labelled c then some label else none,
    ceiling := ceiling }

/-- A key has come into a slot: the KEY notice ACTIVE, and the LINE notices of lines it brings back (R13, R15, R102). -/
def activate (n : SlotNo) (k : Slot) (s : State) : State := lineNotices s (offerActive n (s.setSlot n k))

/-- A component is in and its assembly is not yet complete (R12). -/
def Slot.addComponent (k : Slot) (custodian : Nat) (clear : Block) : Slot :=
  { k with components := some (k.components.getD [] ++ [custodian]), accumulator := some (k.accumulator.getD 0 ^^^ clear) }

/-- The effects of a load at its end, with the result of its last step; none, and NO SUCH, when a zeroisation came between (R12, R13,
R15, R42). -/
def endLoad (l : Load) (result : Block) (s : State) : OrderResult × State :=
  if l.zeroised then (.noSuch, s)
  else
    match l.kind, l.stage with
    | .component n c _, .unwrap _ _ _ => (.done, s.setSlot n ((s.slot n).addComponent c result))
    | .component n _ _, .check clear =>
      if (s.slot n).expected = some (checkOfBlock result) then
        (.done, activate n ((s.slot n).assembled clear (checkOfBlock result)) s)
      else (.checkMismatch, s.emptySlot n)
    | .whole n c check ceiling label, .check clear =>
      if checkOfBlock result = check then (.done, activate n (wholeSlot (s.slot n) c clear check ceiling label) s)
      else (.checkMismatch, s)
    | .whole _ _ _ _ _, .unwrap _ _ _ => (.checkMismatch, s)

/-- The deadline of the assembling slot, and the emptying on entry into DORMANT, reach the slot at the load's end, in the state
the order leaves it (R42). -/
def lateLapse (l : Load) (s : State) : State :=
  match l.kind with
  | .component n _ _ =>
    if (s.slot n).state = .assembling ∧
        (s.store.custody = .dormant ∨ ((s.slot n).deadline.map (deadlineReached s.time.millis)).getD false = true) then
      lapseAssembly n s
    else s
  | .whole _ _ _ _ _ => s

/-- LOAD_UNWRAP_END (R42). -/
def execLoadUnwrapEnd (s : State) : Host.Outcome State Fault Refusal :=
  match s.order.hand with
  | none => .next s
  | some h =>
    match h.handling with
    | .loading l =>
      if s.coreServes .load && l.ends then
        let e := endLoad l s.coreResult s.endStep
        .next (settleCore (buildAnswer h e.1 [] false (engineTake (lateLapse l e.2))))
      else .next s
    | _ => .next s

/-! ### LOCK SLOT, UNLOCK SLOT, RETIRE SLOT, ERASE SLOT, SET CEILING (R16 to R18, R22) -/

/-- LOCK SLOT (R16). -/
def takeLockSlot (a : OrderArgs) (s : State) : Taken :=
  checked
    (do
      s.screen false
      generalSlotOf (byteAt a.params 0))
    s fun n => .answered .done [] (s.setSlot n { s.slot n with lock := true })

def lockSlotRule : OrderRule := knownOrder 0x13 1 .single passWorking takeLockSlot

/-- LOCK_SLOT. -/
def execLockSlot (s : State) : Host.Outcome State Fault Refusal := .next (decideOrder lockSlotRule s)

/-- UNLOCK SLOT (R16). -/
def takeUnlockSlot (a : OrderArgs) (s : State) : Taken :=
  checked
    (do
      s.screen false
      generalSlotOf (byteAt a.params 0))
    s fun n => .answered .done [] (s.setSlot n { s.slot n with lock := false })

def unlockSlotRule : OrderRule := knownOrder 0x14 1 .dual passWorking takeUnlockSlot

/-- UNLOCK_SLOT. -/
def execUnlockSlot (s : State) : Host.Outcome State Fault Refusal := .next (decideOrder unlockSlotRule s)

/-- RETIRE SLOT (R17), with the report of R23 and the LINE notices of R102. -/
def takeRetireSlot (a : OrderArgs) (s : State) : Taken :=
  checked
    (do
      s.screen false
      let n ← generalSlotOf (byteAt a.params 0)
      need (!(s.slot n).lock) .locked
      need (decide ((s.slot n).state = .active)) .notPermitted
      pure n)
    s fun n => .answered .done [] (lineNotices s ((s.setSlot n { s.slot n with state := .retired }).reportUnusable n))

def retireSlotRule : OrderRule := knownOrder 0x15 1 .single passWorking takeRetireSlot

/-- RETIRE_SLOT. -/
def execRetireSlot (s : State) : Host.Outcome State Fault Refusal := .next (decideOrder retireSlotRule s)

/-- A slot is named by a run that is not CLOSED, or by a line (R18 step 3). -/
def State.slotInUse (s : State) (n : SlotNo) : Bool :=
  (s.runs.table.any fun r => decide (r.state ≠ .closed) && r.names n) ||
    s.dispatch.lines.toList.any fun l => decide (l.keySlot = some n)

/-- The checks of ERASE SLOT (R18). -/
def checkEraseSlot (ps : Bytes) (s : State) : Except OrderResult SlotNo := do
  s.screen false
  let n ← generalSlotOf (byteAt ps 0)
  need (!(s.slot n).lock) .locked
  need (decide ((s.slot n).state ≠ .empty)) .noSuch
  need (!s.slotInUse n) .inUse
  pure n

/-- A slot is erased and its scrub pass begins (R18, R23). -/
def eraseSlot (n : SlotNo) (s : State) : State :=
  let t := (s.setSlot n (Slot.blank false)).reportUnusable n
  { t with store := { t.store with scrub := some (.erase n) } }

/-- ERASE SLOT (R18). -/
def takeEraseSlot (a : OrderArgs) (s : State) : Taken :=
  checked (checkEraseSlot a.params s) s fun n => .answered .started [byteOf n.val] (eraseSlot n s)

def eraseSlotRule : OrderRule := knownOrder 0x16 1 .dual passWorking takeEraseSlot

/-- ERASE_SLOT. -/
def execEraseSlot (s : State) : Host.Outcome State Fault Refusal := .next (decideOrder eraseSlotRule s)

/-- The checks of SET CEILING (R22). -/
def checkSetCeiling (ps : Bytes) (s : State) : Except OrderResult SlotNo := do
  s.screen false
  let n ← generalSlotOf (byteAt ps 0)
  need (decide ((s.slot n).state = .active)) .notPermitted
  need (decide (numAt ps 1 4 = 0) || decide ((s.slot n).uses.value < numAt ps 1 4)) .range
  pure n

/-- SET CEILING (R22), with the LINE notices of lines it brings back (R102). -/
def takeSetCeiling (a : OrderArgs) (s : State) : Taken :=
  checked (checkSetCeiling a.params s) s fun n =>
    .answered .done [] (engineTake (lineNotices s (s.setSlot n { s.slot n with ceiling := numAt a.params 1 4 })))

def setCeilingRule : OrderRule := knownOrder 0x17 5 .single passWorking takeSetCeiling

/-- SET_CEILING. -/
def execSetCeiling (s : State) : Host.Outcome State Fault Refusal := .next (decideOrder setCeilingRule s)

/-! ### READ SLOT (R19) -/

/-- A component list in 3 bytes (R190). -/
def componentBytes (cs : List Nat) : Bytes := (cs.map byteOf ++ [0, 0, 0]).take 3

/-- The fields READ SLOT reports, never the key value or the accumulator (R19; log 9). -/
def slotReport (k : Slot) (now : Word) : Bytes :=
  [k.state.code] ++ optionalField 1 (k.cls.map fun c => [c.code]) ++ optionalField 3 (k.check.map fun c => be24 c.toNat) ++
    optionalField 1 (k.required.map fun n => [byteOf n]) ++ optionalField 4 (k.label.map fun x => be32 x.toNat) ++
    be32 k.uses.value ++ [flagByte k.uses.limit] ++ be32 k.ceiling ++ [flagByte k.lock] ++
    optionalField 3 (k.components.map componentBytes) ++ optionalField 3 (k.expected.map fun c => be24 c.toNat) ++
    optionalField 4 (k.deadline.map fun d => be32 (d - now).toNat)

/-- READ SLOT (R19). -/
def takeReadSlot (a : OrderArgs) (s : State) : Taken :=
  checked (slotOf (byteAt a.params 0)) s fun n => .answered .done (slotReport (s.slot n) s.time.millis) s

def readSlotRule : OrderRule := knownOrder 0x18 1 .plain passReads takeReadSlot

/-- READ_SLOT. -/
def execReadSlot (s : State) : Host.Outcome State Fault Refusal := .next (decideOrder readSlotRule s)

/-! ### WAKE, ZEROISE (R26, R27, R164) -/

/-- WAKE (R26). -/
def takeWake (_ : OrderArgs) (s : State) : Taken :=
  checked
    (do
      s.screen false
      need (decide (s.store.custody = .dormant)) .notPermitted)
    s fun _ => .answered .started [] (beginVerify .wake s)

def wakeRule : OrderRule := knownOrder 0x19 0 .single passReads takeWake

/-- WAKE. -/
def execWake (s : State) : Host.Outcome State Fault Refusal := .next (decideOrder wakeRule s)

/-- ZEROISE (R27, R164). -/
def takeZeroise (_ : OrderArgs) (s : State) : Taken :=
  let s1 := s.enterTamper .order .zeroise
  .answered .started [] (zeroise (offerTamper .order .zeroise (decide (s.tamper.record.length < 8)) s1))

def zeroiseRule : OrderRule := knownOrder 0x1A 0 .plain passReads takeZeroise

/-- ZEROISE. -/
def execZeroise (s : State) : Host.Outcome State Fault Refusal := .next (decideOrder zeroiseRule s)

end Sys2Proof.Machine
end

