-- ==== Sys2Proof/Machine/CipherSteps.lean ====
section
/-! DEFINITION. The ends of cipher steps: the engine's (R92), the Key Store side's that are not the last of their operation (R32), and
the last steps of an answer's and a notice's tag (R151, R174). -/

namespace Sys2Proof.Machine

/-- ENGINE_CIPHER_STEP: the result is delivered and the walk continues; a discarded step's result goes to nobody (R92, R96). -/
def execEngineCipherStep (s : State) : Host.Outcome State Fault Refusal :=
  match s.core.work with
  | .engine c false =>
    match s.engine with
    | none => .next (settleCore s.endStep)
    | some w => .next (settleUnit (endWalk (resume c.result w s.endStep)))
  | .engine _ true => .next (settleCore s.endStep)
  | _ => .next s

/-- The handling of the order in hand is replaced. -/
def State.setHandling (s : State) (f : Handling → Handling) : State :=
  { s with order := { s.order with hand := s.order.hand.map fun h => { h with handling := f h.handling } } }

/-- The first notice whose tag is not computed has its job replaced (R174). -/
def replaceJob (f : TagJob → NoticeTag) : List Notice → List Notice
  | [] => []
  | n :: rest =>
    match n.tag with
    | .ready _ => n :: replaceJob f rest
    | .computing j => { n with tag := f j } :: rest

/-- The notices after a step of the Report Unit's. -/
def State.setJob (s : State) (f : TagJob → NoticeTag) : State :=
  { s with report := { s.report with notices := replaceJob f s.report.notices } }

/-- The value whose check follows a load's unwrap step: the key itself, or the accumulator with the last component (R13, R15). After
a zeroisation the step follows too, and its result is discarded (R42). -/
def State.checkedKey (s : State) (l : Load) (clear : Block) : Block :=
  match l.kind with
  | .component n _ _ => (s.slot n).accumulator.getD 0 ^^^ clear
  | .whole _ _ _ _ _ => clear

/-- The order in hand after a step, of a tag or a load, that is not its last; none when the step was the last (R32). -/
def nextHandling (s : State) (v : Block) : Handling → Option Handling
  | .comparing n j => if j.isLast then none else some (.comparing n (j.next v))
  | .answering m j => if j.isLast then none else some (.answering m (j.next v))
  | .loading l => if l.ends then none else some (.loading { l with stage := .check (s.checkedKey l v) })
  | .checking _ => none
  | .untagged => none
  | .screened => none
  | .unmatched => none
  | .answered => none

/-- The unit after a Key Store side step that is not the last of its operation; none when it is the last (R32). -/
def stepKeyStoreSide (u : KsUser) (v : Block) (s : State) : Option State :=
  match u with
  | .verify => if s.store.verify.isSome then none else some s
  | .report =>
    match s.noticeJob with
    | none => some s
    | some j => if j.isLast then none else some (s.setJob fun k => .computing (k.next v))
  | .order | .load =>
    match s.order.hand with
    | none => some s
    | some h => (nextHandling s v h.handling).map fun x => s.setHandling fun _ => x

/-- KEY_STORE_SIDE_CIPHER_STEP (R32, R33). -/
def execKeyStoreSideCipherStep (s : State) : Host.Outcome State Fault Refusal :=
  match s.core.work with
  | .keyStore _ true => .next (settleCore s.endStep)
  | .keyStore k false =>
    match stepKeyStoreSide k.user k.step.result s.endStep with
    | none => .next s
    | some t => .next (settleCore t)
  | _ => .next s

/-- ANSWER_BUILT: the answer's tag has been computed and the answer enters the answer slot (R151). -/
def execAnswerBuilt (s : State) : Host.Outcome State Fault Refusal :=
  match s.order.hand with
  | none => .next s
  | some h =>
    match h.handling with
    | .answering message job =>
      if s.coreServes .order && job.isLast then
        let t := s.endStep
        .next
          (settleCore
            { t with
              order := { t.order with
                hand := some { h with handling := .answered }
                answer := some (answerFrame message (truncateTag s.coreResult)) } })
      else .next s
    | _ => .next s

/-- NOTICE_BUILT: the notice's tag has been computed and the notice is ready in its place (R174). -/
def execNoticeBuilt (s : State) : Host.Outcome State Fault Refusal :=
  match s.noticeJob with
  | none => .next s
  | some job =>
    if s.coreServes .report && job.isLast then
      .next (settleCore (s.endStep.setJob fun _ => .ready (truncateTag s.coreResult)))
    else .next s

end Sys2Proof.Machine
end

