-- ==== Sys2Proof/Machine/LineOrders.lean ====
section
/-! DEFINITION. The orders of the Line Dispatcher (chapter 5) and READ LINK ERRORS (R134). -/

namespace Sys2Proof.Machine

/-- Several lines are changed. -/
def State.mapLines (s : State) (f : LineNo → Line → Line) : State :=
  { s with dispatch := { s.dispatch with lines := Vector.ofFn fun l => f l (s.line l) } }

/-- A line key slot as reported: FFH for none (12.2). -/
def keySlotByte : Option SlotNo → Byte
  | none => 0xFF
  | some n => byteOf n.val

/-- The groups a line belongs to (12.2). -/
def State.groupsOf (s : State) (l : LineNo) : Byte := bitByte ((List.finRange 4).map fun g => s.inGroup g l)

/-! ### SET LINE (R106) -/

/-- What SET LINE gives a line. -/
structure LineSetting where
  line : LineNo
  key : Option SlotNo
  credit : Nat
  groups : BitVec 4
  deriving DecidableEq, Repr

/-- The checks of SET LINE (R106). -/
def checkSetLine (ps : Bytes) (s : State) : Except OrderResult LineSetting := do
  let l ← lineOf (byteAt ps 0)
  let key ← s.lineKeyOf (byteAt ps 1)
  let credit ← creditOf (byteAt ps 2)
  let groups ← groupSetOf (byteAt ps 3)
  pure { line := l, key := key, credit := credit, groups := groups }

/-- A line in or out of a group's set. -/
def setMember (members : BitVec 8) (l : LineNo) (present : Bool) : BitVec 8 :=
  if present then members ||| BitVec.ofNat 8 (2 ^ l.val) else members &&& ~~~BitVec.ofNat 8 (2 ^ l.val)

/-- A line is placed in each group of a set and removed from the others (R106). -/
def State.placeLine (s : State) (l : LineNo) (groups : BitVec 4) : State :=
  { s with
    dispatch := { s.dispatch with
      groups := Vector.ofFn fun (g : GroupNo) => setMember (s.group g) l (groups.getLsbD g.val) } }

/-- A line takes its setting (R106). -/
def applySetting (x : LineSetting) (s : State) : State :=
  (s.setLine x.line { s.line x.line with keySlot := x.key, limit := x.credit }).placeLine x.line x.groups

/-- SET LINE (R106). -/
def takeSetLine (a : OrderArgs) (s : State) : Taken :=
  checked (checkSetLine a.params s) s fun x =>
    let t := lineNotices s (applySetting x s)
    .answered (if 8 < (byteAt a.params 2).toNat then .clamped else .done)
      [keySlotByte x.key, byteOf x.credit, x.groups.setWidth 8, (t.reported x.line).code] (engineTake t)

def setLineRule : OrderRule := knownOrder 0x30 4 .plain passWorking takeSetLine

/-- SET_LINE. -/
def execSetLine (s : State) : Host.Outcome State Fault Refusal := .next (decideOrder setLineRule s)

/-! ### SET GROUP MEMBERS, SET GROUP KEY, SET GROUP CREDIT (R107 to R109) -/

/-- The membership of a group is replaced (R107). -/
def State.setGroup (s : State) (g : GroupNo) (members : BitVec 8) : State :=
  { s with dispatch := { s.dispatch with groups := s.dispatch.groups.set g.val members g.isLt } }

/-- SET GROUP MEMBERS (R107). -/
def takeSetGroupMembers (a : OrderArgs) (s : State) : Taken :=
  checked (groupOf (byteAt a.params 0)) s fun g =>
    .answered .done [byteAt a.params 1] (engineTake (s.setGroup g (byteAt a.params 1)))

def setGroupMembersRule : OrderRule := knownOrder 0x31 2 .plain passWorking takeSetGroupMembers

/-- SET_GROUP_MEMBERS. -/
def execSetGroupMembers (s : State) : Host.Outcome State Fault Refusal := .next (decideOrder setGroupMembersRule s)

/-- A slot is written into every member of a group (R108). -/
def State.setGroupKey (s : State) (g : GroupNo) (key : Option SlotNo) : State :=
  s.mapLines fun l x => if s.inGroup g l then { x with keySlot := key } else x

/-- SET GROUP KEY (R108). -/
def takeSetGroupKey (a : OrderArgs) (s : State) : Taken :=
  checked
    (do
      let g ← groupOf (byteAt a.params 0)
      let key ← s.lineKeyOf (byteAt a.params 1)
      pure (g, key))
    s fun x => .answered .done [s.group x.1] (engineTake (lineNotices s (s.setGroupKey x.1 x.2)))

def setGroupKeyRule : OrderRule := knownOrder 0x32 2 .plain passWorking takeSetGroupKey

/-- SET_GROUP_KEY. -/
def execSetGroupKey (s : State) : Host.Outcome State Fault Refusal := .next (decideOrder setGroupKeyRule s)

/-- A credit limit is written into every member of a group (R109). -/
def State.setGroupCredit (s : State) (g : GroupNo) (credit : Nat) : State :=
  s.mapLines fun l x => if s.inGroup g l then { x with limit := credit } else x

/-- SET GROUP CREDIT (R109). -/
def takeSetGroupCredit (a : OrderArgs) (s : State) : Taken :=
  checked
    (do
      let g ← groupOf (byteAt a.params 0)
      let credit ← creditOf (byteAt a.params 1)
      pure (g, credit))
    s fun x =>
      .answered (if 8 < (byteAt a.params 1).toNat then .clamped else .done) [s.group x.1, byteOf x.2]
        (engineTake (s.setGroupCredit x.1 x.2))

def setGroupCreditRule : OrderRule := knownOrder 0x33 2 .plain passWorking takeSetGroupCredit

/-- SET_GROUP_CREDIT. -/
def execSetGroupCredit (s : State) : Host.Outcome State Fault Refusal := .next (decideOrder setGroupCreditRule s)

/-! ### BAR LINE, UNBAR LINE, CLEAR LINE, PRODUCTION ON, PRODUCTION OFF (R110, R112, R113) -/

/-- BAR LINE (R110). -/
def takeBarLine (a : OrderArgs) (s : State) : Taken :=
  checked (lineOf (byteAt a.params 0)) s fun l =>
    let t := lineNotices s (s.setLine l { s.line l with barred := true })
    .answered .done [(t.reported l).code] t

def barLineRule : OrderRule := knownOrder 0x34 1 .plain passWorking takeBarLine

/-- BAR_LINE. -/
def execBarLine (s : State) : Host.Outcome State Fault Refusal := .next (decideOrder barLineRule s)

/-- UNBAR LINE (R110). -/
def takeUnbarLine (a : OrderArgs) (s : State) : Taken :=
  checked (lineOf (byteAt a.params 0)) s fun l =>
    let t := lineNotices s (s.setLine l { s.line l with barred := false })
    .answered .done [(t.reported l).code] (engineTake t)

def unbarLineRule : OrderRule := knownOrder 0x35 1 .plain passWorking takeUnbarLine

/-- UNBAR_LINE. -/
def execUnbarLine (s : State) : Host.Outcome State Fault Refusal := .next (decideOrder unbarLineRule s)

/-- A line's lapses are cleared: the consecutive count becomes 0 and LAPSES is removed (R112). -/
def Line.clearLapses (x : Line) : Line := { x with consecutive := 0, faults := { x.faults with lapses := false } }

/-- CLEAR LINE (R112). -/
def takeClearLine (a : OrderArgs) (s : State) : Taken :=
  checked (lineOf (byteAt a.params 0)) s fun l =>
    let t := lineNotices s (s.setLine l (s.line l).clearLapses)
    .answered .done [(t.reported l).code] (engineTake t)

def clearLineRule : OrderRule := knownOrder 0x36 1 .plain passWorking takeClearLine

/-- CLEAR_LINE. -/
def execClearLine (s : State) : Host.Outcome State Fault Refusal := .next (decideOrder clearLineRule s)

/-- The production switch. -/
def State.setProduction (s : State) (on : Bool) : State := { s with dispatch := { s.dispatch with production := on } }

/-- PRODUCTION ON (R113). Its LINE notices come before those of the take, the model's choice (log 41). -/
def takeProductionOn (_ : OrderArgs) (s : State) : Taken :=
  .answered .done [] (engineTake (lineNotices s ((s.mapLines fun _ x => x.clearLapses).setProduction true)))

def productionOnRule : OrderRule := knownOrder 0x37 0 .plain passWorking takeProductionOn

/-- PRODUCTION_ON. -/
def execProductionOn (s : State) : Host.Outcome State Fault Refusal := .next (decideOrder productionOnRule s)

/-- PRODUCTION OFF (R113). -/
def takeProductionOff (_ : OrderArgs) (s : State) : Taken := .answered .done [] (s.setProduction false)

def productionOffRule : OrderRule := knownOrder 0x38 0 .plain passWorking takeProductionOff

/-- PRODUCTION_OFF. -/
def execProductionOff (s : State) : Host.Outcome State Fault Refusal := .next (decideOrder productionOffRule s)

/-! ### READ LINE (R119) -/

/-- A 16-bit counter with its limit flag (R190). -/
def Counter.report16 (c : Counter) : Bytes := be16 c.value ++ [flagByte c.limit]

/-- A line as READ LINE reports it (R119). The model's choice: occupied credit and consecutive lapses in one byte each (log 33), the
length of the transmit queue after the three link error flags and before the groups (log 34), and up to 9 of it (log 37). -/
def lineReport (s : State) (l : LineNo) : Bytes :=
  let x := s.line l
  [keySlotByte x.keySlot, byteOf x.limit, byteOf x.occupied, flagByte x.barred, x.faults.byte, byteOf x.consecutive] ++
    x.lapses.report16 ++ x.strays.report16 ++ x.rejects.report16 ++ x.late.report16 ++
    [flagByte x.flags.frameCheck, flagByte x.flags.length, flagByte x.flags.kind, byteOf x.transmit.length, s.groupsOf l,
      (s.reported l).code]

/-- What READ LINE clears (R119). -/
def Line.cleared (x : Line) (counters : Bool) : Line :=
  if counters then { x with flags := .clear, lapses := .zero, strays := .zero, rejects := .zero, late := .zero }
  else { x with flags := .clear }

/-- READ LINE (R119). -/
def takeReadLine (a : OrderArgs) (s : State) : Taken :=
  checked
    (do
      let l ← lineOf (byteAt a.params 0)
      let clear ← flagOf (byteAt a.params 1)
      pure (l, clear))
    s fun x => .answered .done (lineReport s x.1) (s.setLine x.1 ((s.line x.1).cleared x.2))

def readLineRule : OrderRule := knownOrder 0x39 2 .plain passReads takeReadLine

/-- READ_LINE. -/
def execReadLine (s : State) : Host.Outcome State Fault Refusal := .next (decideOrder readLineRule s)

/-! ### READ LINK ERRORS (R134) -/

/-- What READ LINK ERRORS reports (R134). -/
def linkReport (s : State) : Bytes :=
  [flagByte s.link.upFlags.frameCheck, flagByte s.link.upFlags.length, flagByte s.link.upFlags.kind,
    flagByte s.link.upFlags.tag, flagByte s.link.upFlags.number, flagByte s.link.upFlags.unit,
    flagByte s.link.onFlags.frameCheck, flagByte s.link.onFlags.length, flagByte s.link.onFlags.kind,
    byteOf s.link.onwardQueue.length, byteOf s.link.relayQueue.length, byteOf s.link.address, flagByte s.link.chainEnd]

/-- READ LINK ERRORS (R134). -/
def takeReadLinkErrors (_ : OrderArgs) (s : State) : Taken :=
  .answered .done (linkReport s) { s with link := { s.link with upFlags := .clear, onFlags := .clear } }

def readLinkErrorsRule : OrderRule := knownOrder 0x3A 0 .plain passReads takeReadLinkErrors

/-- READ_LINK_ERRORS. -/
def execReadLinkErrors (s : State) : Host.Outcome State Fault Refusal := .next (decideOrder readLinkErrorsRule s)

end Sys2Proof.Machine
end

