-- ==== Sys2Proof/Machine/RecipeOrders.lean ====
section
/-! DEFINITION. DEFINE RECIPE and READ RECIPE (R80, R81). -/

namespace Sys2Proof.Machine

/-- The runs, not CLOSED, that name a recipe (R80, R81). -/
def State.recipeUsers (s : State) (n : RecipeNo) : Nat :=
  s.runs.table.countP fun r => decide (r.state ≠ .closed) && decide (r.recipe = n)

/-- A kind that writes one instance alone (R80 step 5). -/
def ActionKind.once (k : ActionKind) : Bool := decide (k = .stamp) || decide (k = .outTag)

/-- The repeat used: 0 is taken as 16 (R80 step 6). -/
def Action.taken (a : Action) : Action := { a with repeats := if a.repeats = 0 then 16 else a.repeats }

/-- Repeat and tags of an action, its repeat as taken, lie in their ranges (R80 step 6). -/
def Action.inRange (a : Action) : Bool :=
  decide (a.repeats ≤ 16) && (a.kind.once || decide (a.source + a.repeats - 1 ≤ 255)) &&
    decide (a.result + a.repeats - 1 ≤ 255)

/-- The checks of DEFINE RECIPE: the entry and its actions with their repeats as taken (R80). -/
def checkDefineRecipe (ps : Bytes) (s : State) : Except OrderResult (RecipeNo × List Action) := do
  let n ← recipeOf (byteAt ps 0)
  need (decide (s.recipeUsers n = 0)) .inUse
  need (decide (1 ≤ (byteAt ps 1).toNat) && decide ((byteAt ps 1).toNat ≤ 16)) .range
  let actions ← actionsOf (byteAt ps 1).toNat (ps.drop 2)
  need (actions.all fun a => !a.kind.once || decide (a.repeats = 1)) .range
  let taken := actions.map Action.taken
  need (taken.all Action.inRange) .range
  need (decide ((expandRecipe taken).map ActionInst.result).Nodup) .range
  pure (n, taken)

/-- Some repeat field of the order is 0 (R80). -/
def repeatClamped (ps : Bytes) : Bool := (List.range (byteAt ps 1).toNat).any fun i => decide (byteAt ps (2 + 7 * i + 3) = 0)

/-- A recipe is written into its entry (R80). -/
def State.setRecipe (s : State) (n : RecipeNo) (actions : List Action) : State :=
  { s with recipes := s.recipes.set n.val (some actions) n.isLt }

/-- DEFINE RECIPE (R80). -/
def takeDefineRecipe (a : OrderArgs) (s : State) : Taken :=
  checked (checkDefineRecipe a.params s) s fun x =>
    .answered (if repeatClamped a.params then .clamped else .done)
      ([byteOf x.1.val, byteOf x.2.length] ++ be16 (expandRecipe x.2).length) (s.setRecipe x.1 x.2)

/-- DEFINE RECIPE calls for 2 bytes and 7 for each action record (R189). -/
def defineRecipeRule : OrderRule :=
  { matching := fun b => b == 0x28, known := true, fits := fun ps => decide (ps.length = 2 + 7 * (byteAt ps 1).toNat),
    cls := .plain, passed := passWorking, take := takeDefineRecipe }

/-- DEFINE_RECIPE. -/
def execDefineRecipe (s : State) : Host.Outcome State Fault Refusal := .next (decideOrder defineRecipeRule s)

/-- An action record in 7 bytes (12.2). -/
def Action.report (a : Action) : Bytes :=
  [a.kind.code, byteOf a.source, byteOf a.result, byteOf a.repeats] ++ be16 a.variant.toNat ++ [flagByte a.optional]

/-- READ RECIPE (R81). -/
def takeReadRecipe (a : OrderArgs) (s : State) : Taken :=
  checked
    (do
      let n ← recipeOf (byteAt a.params 0)
      match s.recipe n with
      | none => .error .noSuch
      | some actions => .ok (n, actions))
    s fun x => .answered .done (x.2.flatMap Action.report ++ [byteOf (s.recipeUsers x.1)]) s

def readRecipeRule : OrderRule := knownOrder 0x29 1 .plain passReads takeReadRecipe

/-- READ_RECIPE. -/
def execReadRecipe (s : State) : Host.Outcome State Fault Refusal := .next (decideOrder readRecipeRule s)

end Sys2Proof.Machine
end

