-- ==== Sys2Proof/Machine/RunOrders.lean ====
section
/-! DEFINITION. The orders of the Run Controller (chapter 3). -/

namespace Sys2Proof.Machine

/-! ### OPEN RUN (R47 to R49) -/

/-- A slot that OPEN RUN names: above 63 or EMPTY is NO SUCH (R47 step 4). -/
def State.filledSlotOf (s : State) (b : Byte) : Except OrderResult SlotNo := do
  let n ← slotOf b
  need (decide ((s.slot n).state ≠ .empty)) .noSuch
  pure n

/-- A prep slot that OPEN RUN may name, FFH for none (R47 step 4). -/
def State.prepSlotOf (s : State) (b : Byte) : Except OrderResult (Option SlotNo) :=
  if b = 0xFF then .ok none else (s.filledSlotOf b).map some

/-- What OPEN RUN's checks find. -/
structure RunNames where
  recipe : RecipeNo
  master : SlotNo
  prep : Option SlotNo
  group : GroupNo
  deriving DecidableEq, Repr

/-- The recipe that OPEN RUN names is defined (R47 step 3). -/
def State.definedRecipe (s : State) (r : RecipeNo) : Except OrderResult (List Action) :=
  match s.recipe r with
  | none => .error .noSuch
  | some actions => .ok actions

/-- A named prep slot is of class PREP (R47 step 7). -/
def State.prepClass (s : State) : Option SlotNo → Bool
  | none => true
  | some n => decide ((s.slot n).cls = some .prep)

/-- The checks of OPEN RUN (R47). -/
def checkOpenRun (ps : Bytes) (s : State) : Except OrderResult RunNames := do
  need (s.run (wordAt ps 0)).isNone .exists
  need (decide (s.runs.table.length < 16)) .noSuch
  let rec' ← recipeOf (byteAt ps 21)
  let actions ← s.definedRecipe rec'
  let master ← s.filledSlotOf (byteAt ps 19)
  let prep ← s.prepSlotOf (byteAt ps 20)
  need (decide (1 ≤ numAt ps 8 4) && decide (numAt ps 8 4 ≤ 2000000)) .range
  let group ← groupOf (byteAt ps 22)
  need (decide ((s.slot master).cls = some .master) && s.prepClass prep) .range
  need (prep.isSome == hasRewrap actions) .range
  pure { recipe := rec', master := master, prep := prep, group := group }

/-- The outcome timeout used (R48). -/
def timeoutUsed (t : Nat) : Nat := if t = 0 then 30000 else max 1000 (min t 600000)

/-- The progress postscaler used (R48). -/
def postscalerUsed (n : Nat) : Nat := if n = 0 then 256 else n

/-- A value of OPEN RUN was moved: P to 250, a nonzero T to a limit, or N given as 0 (R48). -/
def openClamped (p t n : Nat) : Bool :=
  decide (250 < p) || (decide (t ≠ 0) && (decide (t < 1000) || decide (600000 < t))) || decide (n = 0)

/-- The run record that OPEN RUN creates (R48). -/
def openedRun (ps : Bytes) (x : RunNames) : Run :=
  let q := numAt ps 8 4
  let p := min (numAt ps 12 2) 250
  { number := wordAt ps 0, state := .defined, holds := { order := false, overspoil := false, key := false }, master := x.master,
    prep := x.prep, recipe := x.recipe, group := x.group, first := wordAt ps 4, quantity := q, spoilRate := p,
    allowance := spoilAllowance q p, timeout := timeoutUsed (numAt ps 14 4), postscaler := postscalerUsed (numAt ps 18 1),
    progress := 0, low := 0, window := freshWindow q, issues := 0, reissues := 0, done := 0, spoiled := 0, lapsed := 0,
    voided := 0, duplicates := .zero, late := .zero, unissued := none }

/-- A run record joins the table. -/
def State.addRun (s : State) (r : Run) : State := { s with runs := { s.runs with table := s.runs.table ++ [r] } }

/-- OPEN RUN (R47, R48). -/
def takeOpenRun (a : OrderArgs) (s : State) : Taken :=
  checked (checkOpenRun a.params s) s fun x =>
    let r := openedRun a.params x
    .answered
      (if openClamped (numAt a.params 12 2) (numAt a.params 14 4) (numAt a.params 18 1) then .clamped else .done)
      (be16 r.spoilRate ++ be32 r.timeout ++ [byteOf r.postscaler] ++ be32 r.allowance) (s.addRun r)

def openRunRule : OrderRule := knownOrder 0x20 23 .plain passWorking takeOpenRun

/-- OPEN_RUN. -/
def execOpenRun (s : State) : Host.Outcome State Fault Refusal := .next (decideOrder openRunRule s)

/-! ### RELEASE RUN, HOLD RUN, ADD ALLOWANCE (R50, R51, R53) -/

/-- A run that is known and neither CLOSING nor CLOSED (R50, R51). -/
def State.openedRunOf (s : State) (n : Word) : Except OrderResult Run := do
  let r ← s.knownRun n
  need (decide (r.state ≠ .closing) && decide (r.state ≠ .closed)) .notPermitted
  pure r

/-- A run after RELEASE RUN, given whether its keys are usable (R50). -/
def Run.release (usable : Bool) (r : Run) : Run :=
  match r.state with
  | .defined =>
    let h := { r.holds with key := !usable }
    { r with holds := h, state := if h.isEmpty then .live else .held }
  | .held => r.dropCauses fun h => { h with order := false, key := h.key && !usable }
  | _ => r

/-- The state and hold causes of a run, as RELEASE RUN reports them (R50). -/
def State.runStanding (s : State) (n : Word) : Bytes :=
  match s.run n with
  | none => []
  | some r => [r.state.code, r.holds.byte]

/-- RELEASE RUN (R50). -/
def takeReleaseRun (a : OrderArgs) (s : State) : Taken :=
  let n := wordAt a.params 0
  checked (s.openedRunOf n) s fun r =>
    let t := s.updateRun n (Run.release (s.keysUsable r))
    .answered .done (t.runStanding n) (engineTake t)

def releaseRunRule : OrderRule := knownOrder 0x21 4 .plain passWorking takeReleaseRun

/-- RELEASE_RUN. -/
def execReleaseRun (s : State) : Host.Outcome State Fault Refusal := .next (decideOrder releaseRunRule s)

/-- A run after HOLD RUN (R51). -/
def Run.hold (r : Run) : Run := { r with holds := { r.holds with order := true }, state := .held }

/-- HOLD RUN (R51). -/
def takeHoldRun (a : OrderArgs) (s : State) : Taken :=
  let n := wordAt a.params 0
  checked (s.openedRunOf n) s fun _ => .answered .done [] (s.updateRun n Run.hold)

def holdRunRule : OrderRule := knownOrder 0x22 4 .plain passWorking takeHoldRun

/-- HOLD_RUN. -/
def execHoldRun (s : State) : Host.Outcome State Fault Refusal := .next (decideOrder holdRunRule s)

/-- A run after ADD ALLOWANCE (R53). -/
def Run.raiseAllowance (extra : Nat) (r : Run) : Run :=
  let allowed := min (r.allowance + extra) r.quantity
  let t := { r with allowance := allowed }
  if r.spoiled ≤ allowed then t.dropCauses fun h => { h with overspoil := false } else t

/-- ADD ALLOWANCE (R53). -/
def takeAddAllowance (a : OrderArgs) (s : State) : Taken :=
  let n := wordAt a.params 0
  let extra := numAt a.params 4 2
  checked
    (do
      let r ← s.knownRun n
      need (decide (r.state ≠ .closed)) .notPermitted
      need (decide (extra ≠ 0)) .range
      pure r)
    s fun r =>
      .answered (if r.quantity < r.allowance + extra then .clamped else .done) (be32 (min (r.allowance + extra) r.quantity))
        (engineTake (s.updateRun n (Run.raiseAllowance extra)))

def addAllowanceRule : OrderRule := knownOrder 0x23 6 .single passWorking takeAddAllowance

/-- ADD_ALLOWANCE. -/
def execAddAllowance (s : State) : Host.Outcome State Fault Refusal := .next (decideOrder addAllowanceRule s)

/-! ### CLOSE RUN, WRITE OFF CARD, DELETE RUN (R71, R73, R74) -/

/-- CLOSE RUN (R71). -/
def takeCloseRun (a : OrderArgs) (s : State) : Taken :=
  let n := wordAt a.params 0
  checked
    (do
      let r ← s.knownRun n
      need (decide (r.state ≠ .closed)) .notPermitted
      pure r)
    s fun r =>
      if r.state = .closing then .answered .done [] s
      else .answered .done [] (closeTest n (withdrawRun n (s.updateRun n fun x => { x with state := .closing })))

def closeRunRule : OrderRule := knownOrder 0x24 4 .plain passWorking takeCloseRun

/-- CLOSE_RUN. -/
def execCloseRun (s : State) : Host.Outcome State Fault Refusal := .next (decideOrder closeRunRule s)

/-- The checks of WRITE OFF CARD (R73). -/
def checkWriteOff (ps : Bytes) (s : State) : Except OrderResult (Run × Position) := do
  let r ← s.knownRun (wordAt ps 0)
  let o := r.offset (wordAt ps 4)
  need (decide (r.state ≠ .closed)) .notPermitted
  need (decide (o < r.quantity) && decide (o < r.low + 64)) .range
  need (decide (r.low ≤ o)) .notPermitted
  match r.position o with
  | none => .error .range
  | some p => do
    need (!p.settled) .notPermitted
    need (decide (p.state ≠ .staged) && decide (p.state ≠ .out)) .inUse
    pure (r, p)

/-- A run after an OPEN or SPOILED position is written off (R73). -/
def Run.writeOff (o : Nat) (p : Position) (r : Run) : Run :=
  { r.setPosition o (some { p with state := .voided }) with voided := r.voided + 1 }

/-- WRITE OFF CARD (R73). -/
def takeWriteOff (a : OrderArgs) (s : State) : Taken :=
  checked (checkWriteOff a.params s) s fun x =>
    let n := wordAt a.params 0
    .answered .done [] (advanceRun n (s.updateRun n (Run.writeOff (x.1.offset (wordAt a.params 4)) x.2)))

def writeOffCardRule : OrderRule := knownOrder 0x25 8 .plain passWorking takeWriteOff

/-- WRITE_OFF_CARD. -/
def execWriteOffCard (s : State) : Host.Outcome State Fault Refusal := .next (decideOrder writeOffCardRule s)

/-- DELETE RUN (R74). -/
def takeDeleteRun (a : OrderArgs) (s : State) : Taken :=
  let n := wordAt a.params 0
  checked
    (do
      let r ← s.knownRun n
      need (decide (r.state = .closed)) .notPermitted)
    s fun _ => .answered .done [] { s with runs := { s.runs with table := s.runs.table.filter fun r => !(r.number == n) } }

def deleteRunRule : OrderRule := knownOrder 0x26 4 .plain passWorking takeDeleteRun

/-- DELETE_RUN. -/
def execDeleteRun (s : State) : Host.Outcome State Fault Refusal := .next (decideOrder deleteRunRule s)

/-! ### READ RUN (R75) -/

/-- The fields of a run record as READ RUN reports them (R75, R190). -/
def Run.fieldReport (r : Run) : Bytes :=
  be32 r.number.toNat ++ [r.state.code, r.holds.byte, byteOf r.master.val] ++
    optionalField 1 (r.prep.map fun n => [byteOf n.val]) ++ [byteOf r.recipe.val, byteOf r.group.val] ++ be32 r.first.toNat ++
    be32 r.quantity ++ be16 r.spoilRate ++ be32 r.allowance ++ be32 r.timeout ++ [byteOf r.postscaler, byteOf r.progress] ++
    be32 r.low ++ r.counters ++ be16 r.duplicates.value ++ [flagByte r.duplicates.limit] ++ be16 r.late.value ++
    [flagByte r.late.limit] ++ optionalField 4 (r.unissued.map be32)

/-- A position as READ RUN reports it (R75, R190). -/
def Position.report (p : Position) : Bytes :=
  [p.state.code, byteOf p.attempt] ++ optionalField 1 (p.line.map fun l => [byteOf l.val]) ++
    optionalField 1 (if p.lateEligible then p.lapsedLine.map fun l => [byteOf l.val] else none)

/-- The positions from the low mark on, in offset order (R75). -/
def Run.positionReport (r : Run) : Bytes :=
  (List.range 64).flatMap fun i =>
    match r.position (r.low + i) with
    | none => []
    | some p => p.report

/-- READ RUN (R75). -/
def takeReadRun (a : OrderArgs) (s : State) : Taken :=
  checked (s.knownRun (wordAt a.params 0)) s fun r => .answered .done (r.fieldReport ++ r.positionReport) s

def readRunRule : OrderRule := knownOrder 0x27 4 .plain passReads takeReadRun

/-- READ_RUN. -/
def execReadRun (s : State) : Host.Outcome State Fault Refusal := .next (decideOrder readRunRule s)

end Sys2Proof.Machine
end

