-- ==== Sys2Proof/Machine/SystemOrders.lean ====
section
/-! DEFINITION. STATUS, GRANT, SET UNIT, SET TIME, SET NOTICE MASK, SET ALARM MASK, SET IDLE LIMIT, and an order of a code the unit
does not know (R135, R140, R145, R171, R173, R177, R178, R187). -/

namespace Sys2Proof.Machine

/-! ### STATUS (R177) -/

/-- What STATUS reports (R177). A notice whose tag is still being computed counts among those in the queue (log 39), and the alarm
output is 01H while asserted, the model's choices (log 40). -/
def statusReport (s : State) : Bytes :=
  be16 s.report.lost.value ++ [flagByte s.report.lost.limit, byteOf s.report.notices.length] ++
    be16 s.report.noticeMask.toNat ++ be16 s.report.alarmMask.toNat ++ [flagByte s.alarmOutput] ++ be32 s.time.millis.toNat ++
    be32 s.time.seconds.value ++
    [flagByte s.time.seconds.limit, s.store.custody.code, byteOf s.link.address, flagByte s.link.chainEnd]

/-- The notices-lost counter is cleared (R175). -/
def State.clearLost (s : State) : State := { s with report := { s.report with lost := .zero } }

/-- STATUS (R177). -/
def takeStatus (a : OrderArgs) (s : State) : Taken :=
  checked (flagOf (byteAt a.params 0)) s fun clear => .answered .done (statusReport s) (if clear then s.clearLost else s)

def statusRule : OrderRule := knownOrder 0x01 1 .plain passAll takeStatus

/-- STATUS. -/
def execStatus (s : State) : Host.Outcome State Fault Refusal := .next (decideOrder statusRule s)

/-! ### GRANT (R145) -/

/-- The gate's grants as an answer lists them (R145, R190). -/
def grantList (gs : List Grant) : Bytes :=
  [byteOf gs.length] ++ gs.flatMap fun g => [byteOf g.custodian] ++ be32 g.target.toNat

/-- A grant is appended to the gate; of two grants that stand there the older is dropped (R145 step 3). -/
def State.appendGrant (s : State) (g : Grant) : State :=
  let kept := if 2 ≤ s.order.gate.grants.length then s.order.gate.grants.tail else s.order.gate.grants
  { s with order := { s.order with gate := { grants := kept ++ [g], deadline := some (s.after 60000) } } }

/-- GRANT (R145). -/
def takeGrant (a : OrderArgs) (s : State) : Taken :=
  let custodian := (byteAt a.params 0).toNat
  let target := wordAt a.params 1
  checked
    (do
      need (decide (a.number < target)) .range
      need (s.order.gate.grants.all fun g => decide (g.custodian ≠ custodian)) .sameCustodian)
    s fun _ =>
      let t := s.appendGrant { custodian := custodian, target := target, accepted := s.time.millis }
      .answered .done (grantList t.order.gate.grants) t

def grantRule : OrderRule := knownOrder 0x02 5 .grant passReads takeGrant

/-- GRANT. -/
def execGrant (s : State) : Host.Outcome State Fault Refusal := .next (decideOrder grantRule s)

/-! ### SET UNIT (R135, R142) -/

/-- SET UNIT (R142). -/
def takeSetUnit (contact : Bool) (a : OrderArgs) (s : State) : Taken :=
  let address := (byteAt a.params 0).toNat
  checked
    (do
      need contact .notPermitted
      need (decide (address ≤ 30)) .range
      flagOf (byteAt a.params 1))
    s fun chainEnd => .answered .done [] { s with link := { s.link with address := address, chainEnd := chainEnd } }

def setUnitRule (contact : Bool) : OrderRule := knownOrder 0x04 2 .plain passFactory (takeSetUnit contact)

/-- SET_UNIT. -/
def execSetUnit (contact : Bool) (s : State) : Host.Outcome State Fault Refusal := .next (decideOrder (setUnitRule contact) s)

/-! ### SET TIME, SET NOTICE MASK, SET ALARM MASK, SET IDLE LIMIT (R171, R173, R178, R187) -/

/-- SET TIME (R171). The seconds clock is reported without its limit flag, the model's choice (log 36). -/
def takeSetTime (a : OrderArgs) (s : State) : Taken :=
  let value := numAt a.params 0 4
  .answered .done (be32 s.time.seconds.value ++ be32 value)
    { s with time := { s.time with seconds := { value := value, limit := false }, ticks := 0 } }

def setTimeRule : OrderRule := knownOrder 0x48 4 .plain passWorking takeSetTime

/-- SET_TIME. -/
def execSetTime (s : State) : Host.Outcome State Fault Refusal := .next (decideOrder setTimeRule s)

/-- A notice mask that may be set: bits 7 and 8 are 1, bits 9 to 15 are 0 (R173, 12.4). -/
def noticeMaskAllowed (m : Nat) : Bool := decide (m / 128 = 3)

/-- SET NOTICE MASK (R173). -/
def takeSetNoticeMask (a : OrderArgs) (s : State) : Taken :=
  let mask := numAt a.params 0 2
  checked (need (noticeMaskAllowed mask) .range) s fun _ =>
    .answered .done (be16 mask) { s with report := { s.report with noticeMask := BitVec.ofNat 16 mask } }

def setNoticeMaskRule : OrderRule := knownOrder 0x49 2 .plain passWorking takeSetNoticeMask

/-- SET_NOTICE_MASK. -/
def execSetNoticeMask (s : State) : Host.Outcome State Fault Refusal := .next (decideOrder setNoticeMaskRule s)

/-- SET ALARM MASK (R178). -/
def takeSetAlarmMask (a : OrderArgs) (s : State) : Taken :=
  let mask := numAt a.params 0 2
  .answered .done (be16 mask) { s with report := { s.report with alarmMask := BitVec.ofNat 16 mask } }

def setAlarmMaskRule : OrderRule := knownOrder 0x4A 2 .plain passWorking takeSetAlarmMask

/-- SET_ALARM_MASK. -/
def execSetAlarmMask (s : State) : Host.Outcome State Fault Refusal := .next (decideOrder setAlarmMaskRule s)

/-- The idle limit is written, and the idle timer started, or STOPPED when the limit is 0 (R187). -/
def State.setIdleLimit (s : State) (limit : Nat) : State :=
  let t := { s with power := { s.power with idleLimit := limit } }
  if limit = 0 then { t with power := { t.power with idle := none } } else t.startIdle

/-- SET IDLE LIMIT (R187). -/
def takeSetIdleLimit (a : OrderArgs) (s : State) : Taken :=
  .answered .done [byteAt a.params 0] (s.setIdleLimit (byteAt a.params 0).toNat)

def setIdleLimitRule : OrderRule := knownOrder 0x4B 1 .plain passWorking takeSetIdleLimit

/-- SET_IDLE_LIMIT. -/
def execSetIdleLimit (s : State) : Host.Outcome State Fault Refusal := .next (decideOrder setIdleLimitRule s)

/-! ### A code the unit does not know (R140 step 1) -/

/-- The order codes of 12.4. -/
def knownCodes : List Byte :=
  [0x01, 0x02, 0x03, 0x04, 0x05, 0x10, 0x11, 0x12, 0x13, 0x14, 0x15, 0x16, 0x17, 0x18, 0x19, 0x1A, 0x1B] ++
    [0x20, 0x21, 0x22, 0x23, 0x24, 0x25, 0x26, 0x27, 0x28, 0x29] ++
    [0x30, 0x31, 0x32, 0x33, 0x34, 0x35, 0x36, 0x37, 0x38, 0x39, 0x3A] ++
    [0x40, 0x41, 0x42, 0x43, 0x44, 0x48, 0x49, 0x4A, 0x4B]

/-- An order of any other code: refused NO SUCH at step 1, so it has no rule of its own (R140). -/
def unknownRule : OrderRule :=
  { matching := fun b => !knownCodes.contains b, known := false, fits := fun _ => true, cls := .plain, passed := passAll,
    take := fun _ s => refused .noSuch s }

/-- UNKNOWN_ORDER_CODE. -/
def execUnknownOrderCode (s : State) : Host.Outcome State Fault Refusal := .next (decideOrder unknownRule s)

end Sys2Proof.Machine
end

