-- ==== Sys2Proof/Machine/TamperOrders.lean ====
section
/-! DEFINITION. The orders of the Tamper Monitor (chapter 8). -/

namespace Sys2Proof.Machine

/-! ### SET SENSOR (R160) -/

/-- A sensor's configuration in 6 bytes (12.2). -/
def Sensor.config (x : Sensor) : Bytes :=
  [flagByte x.enable, x.polarity.code, x.mode.code, x.action.code, byteOf x.qualification, flagByte x.alarmMasked]

/-- What a new configuration does to a sensor's status (R160). -/
def reconfigured (i : SensorNo) (s : State) : State :=
  match (s.sensor i).status with
  | .idle => considerSensor i s
  | .qualifying => considerSensor i (s.setSensor i { s.sensor i with status := .idle, timer := none })
  | .tripped => if (s.sensor i).active then s else releaseSensor i s
  | .latched => s

/-- The checks of SET SENSOR: the sensor and its record with the new configuration (R160). -/
def checkSetSensor (ps : Bytes) (s : State) : Except OrderResult (SensorNo × Sensor) := do
  let i ← sensorOf (byteAt ps 0)
  let x ← configure (s.sensor i) (ps.drop 1)
  pure (i, x)

/-- SET SENSOR (R160). -/
def takeSetSensor (a : OrderArgs) (s : State) : Taken :=
  checked (checkSetSensor a.params s) s fun p =>
    let t := reconfigured p.1 (s.setSensor p.1 p.2)
    .answered .done ((t.sensor p.1).config ++ [(t.sensor p.1).status.code]) (engineTake t)

def setSensorRule : OrderRule := knownOrder 0x40 7 .dual passWorking takeSetSensor

/-- SET_SENSOR. -/
def execSetSensor (s : State) : Host.Outcome State Fault Refusal := .next (decideOrder setSensorRule s)

/-! ### RESUME (R159) -/

/-- The sensors of a kind, as a byte with bit n for Sn (R190). -/
def sensorSet (f : SensorNo → Bool) : Byte := bitByte ((List.finRange 6).map f)

/-- RESUME (R159). -/
def takeResume (_ : OrderArgs) (s : State) : Taken :=
  checked (need ((List.finRange 6).any s.releasable) .notPermitted) s fun _ =>
    let t := releaseLatched s
    .answered .done [sensorSet s.releasable, sensorSet fun i => decide ((t.sensor i).status = .latched)] (engineTake t)

def resumeRule : OrderRule := knownOrder 0x41 0 .dual passWorking takeResume

/-- RESUME. -/
def execResume (s : State) : Host.Outcome State Fault Refusal := .next (decideOrder resumeRule s)

/-! ### OPEN CABINET, CLOSE CABINET (R161, R162) -/

/-- The window opens for so many milliseconds, and S0 is held off (R161). -/
def openWindow (ms : Nat) (s : State) : State :=
  let t := { s with tamper := { s.tamper with window := some ms } }
  if (t.sensor 0).status = .qualifying then t.setSensor 0 { t.sensor 0 with status := .idle, timer := none } else t

/-- OPEN CABINET (R161). -/
def takeOpenCabinet (a : OrderArgs) (s : State) : Taken :=
  let minutes := (byteAt a.params 0).toNat
  checked (need (decide (1 ≤ minutes) && decide (minutes ≤ 30)) .range) s fun _ =>
    .answered .done [byteOf minutes] (openWindow (minutes * 60000) s)

def openCabinetRule : OrderRule := knownOrder 0x42 1 .dual passWorking takeOpenCabinet

/-- OPEN_CABINET. -/
def execOpenCabinet (s : State) : Host.Outcome State Fault Refusal := .next (decideOrder openCabinetRule s)

/-- CLOSE CABINET (R162). -/
def takeCloseCabinet (_ : OrderArgs) (s : State) : Taken :=
  .answered .done [] (if s.tamper.window.isSome then closeWindow s else s)

def closeCabinetRule : OrderRule := knownOrder 0x43 0 .plain passWorking takeCloseCabinet

/-- CLOSE_CABINET. -/
def execCloseCabinet (s : State) : Host.Outcome State Fault Refusal := .next (decideOrder closeCabinetRule s)

/-! ### READ TAMPER RECORD (R165) -/

/-- The minutes until the window's end: exact where the time left is a whole number of minutes, else rounded as the spec leaves
open (R165; log 5). -/
def minutesLeft (ms : Nat) : Nat := if ms % 60000 = 0 then ms / 60000 else ms / 60000 + (Config.roundMinutesUp ms).toNat

/-- An entry of the tamper record as reported (R163, R165; log 10). -/
def TamperEntry.report (e : TamperEntry) : Bytes :=
  [e.source.code] ++ be32 e.seconds ++ optionalField 2 (e.millis.map fun m => be16 m.toNat) ++ [e.action.code, e.before.code]

/-- An 8-bit counter with its limit flag (R190). -/
def Counter.report8 (c : Counter) : Bytes := [byteOf c.value, flagByte c.limit]

/-- What READ TAMPER RECORD reports (R165; log 10): 01H for an open window and for the lock-release output asserted, the model's choice
(log 40). -/
def tamperReport (s : State) : Bytes :=
  s.tamper.record.flatMap TamperEntry.report ++ s.tamper.overflow.report8 ++ s.tamper.events.report8 ++
    s.tamper.sensors.toList.flatMap (fun x => x.config ++ [x.status.code, flagByte x.input]) ++
    [flagByte s.tamper.window.isSome] ++ optionalField 1 (s.tamper.window.map fun ms => [byteOf (minutesLeft ms)]) ++
    [flagByte s.lockRelease]

/-- READ TAMPER RECORD (R165). -/
def takeReadTamperRecord (_ : OrderArgs) (s : State) : Taken := .answered .done (tamperReport s) s

def readTamperRecordRule : OrderRule := knownOrder 0x44 0 .plain passAll takeReadTamperRecord

/-- READ_TAMPER_RECORD. -/
def execReadTamperRecord (s : State) : Host.Outcome State Fault Refusal := .next (decideOrder readTamperRecordRule s)

/-! ### ACK TAMPER (R29, R166) -/

/-- Passed in OPERATIONAL and in ZEROISED (R141, R166). -/
def passAck (c : Custody) : Bool := decide (c = .operational) || decide (c = .zeroised)

/-- ACK TAMPER (R29, R166). The overflow count is reported without its limit flag, the model's choice (log 36). -/
def takeAckTamper (contact : Bool) (_ : OrderArgs) (s : State) : Taken :=
  let values : Bytes := [byteOf s.tamper.record.length, byteOf s.tamper.overflow.value]
  checked
    (do
      s.screen false
      need (contact || decide (s.store.custody ≠ .zeroised)) .notPermitted)
    s fun _ =>
      if s.store.custody = .zeroised then .answered .done values (releaseLatched ((clearRecord s).setCustody .factory))
      else .answered .done values (clearRecord s)

def ackTamperRule (contact : Bool) : OrderRule := knownOrder 0x1B 0 .dual passAck (takeAckTamper contact)

/-- ACK_TAMPER. -/
def execAckTamper (contact : Bool) (s : State) : Host.Outcome State Fault Refusal :=
  .next (decideOrder (ackTamperRule contact) s)

end Sys2Proof.Machine
end

