-- ==== Sys2Proof/Machine/HandOver.lean ====
section
/-! DEFINITION. An order is handed to the Order Unit (R137): authenticated in OPERATIONAL and DORMANT (R138), screened at once in
FACTORY and ZEROISED (R141), and left to its decision when it is a broadcast (R150). -/

namespace Sys2Proof.Machine

/-- The rules of the catalogue (7.8). The contact is read when an order is taken, and no rule's code, length or custody states depend
on it (R142). -/
def orderRules : List OrderRule :=
  [statusRule, grantRule, loadClearRule true, setUnitRule true, commissionRule true] ++
    [beginKeyRule, loadComponentRule, loadWrappedKeyRule, lockSlotRule, unlockSlotRule, retireSlotRule, eraseSlotRule, setCeilingRule,
      readSlotRule, wakeRule, zeroiseRule, ackTamperRule true] ++
    [openRunRule, releaseRunRule, holdRunRule, addAllowanceRule, closeRunRule, writeOffCardRule, deleteRunRule, readRunRule] ++
    [defineRecipeRule, readRecipeRule] ++
    [setLineRule, setGroupMembersRule, setGroupKeyRule, setGroupCreditRule, barLineRule, unbarLineRule, clearLineRule,
      productionOnRule, productionOffRule, readLineRule, readLinkErrorsRule] ++
    [setSensorRule, resumeRule, openCabinetRule, closeCabinetRule, readTamperRecordRule] ++
    [setTimeRule, setNoticeMaskRule, setAlarmMaskRule, setIdleLimitRule]

/-- The rule of an order code, that of an unknown code when the catalogue has none (R140 step 1). -/
def ruleOf (code : Byte) : OrderRule := (orderRules.find? fun r => r.matching code).getD unknownRule

/-- An order comes into hand (R137). -/
def State.hold (s : State) (h : OrderInHand) : State := { s with order := { s.order with hand := some h } }

/-- An order comes into hand in FACTORY or ZEROISED: steps 1 and 2 of R140 and the custody check are made at once, and a refusal is
answered at once (R141). In FACTORY the check value of the key that a LOAD CLEAR carries is then computed (R9, R35; log 19). -/
def handUntagged (h : OrderInHand) (s : State) : State :=
  match (ruleOf h.code).screen h s with
  | .error r => buildAnswer h r [] false s
  | .ok _ =>
    s.hold { h with handling := if h.code = 0x03 then .checking (blockOfBytes (sliceBytes h.params 1 16)) else .screened }

/-- An order is handed to the Order Unit (R137, R138, R141, R150). -/
def handOver (frame : Bytes) (broadcast : Bool) (s : State) : State :=
  let h : OrderInHand := { header := frame.take 8, body := frameBody frame, broadcast := broadcast, handling := .untagged }
  if broadcast then s.hold h
  else
    match s.store.custody with
    | .factory | .zeroised => handUntagged h s
    | .operational | .dormant => s.hold { h with handling := s.authentication h.header h.body }

end Sys2Proof.Machine
end

