-- ==== Sys2Proof/Machine/Frames.lean ====
section
/-! DEFINITION. Frames that arrive: on the upstream port (R124 to R128), on the onward port (R130), on the line ports (R117, R118). -/

namespace Sys2Proof.Machine

/-! ### The checks of a whole frame -/

/-- The body length a header gives (12.1). -/
def statedLength (frame : Bytes) : Nat := natOfBytes (sliceBytes frame 2 2)

/-- The length check (R124 step 1, R117 step 1). -/
def lengthFault (frame : Bytes) : Bool :=
  decide (1012 < frame.length) || decide (frame.length < 12) || decide (1000 < statedLength frame) ||
    decide (statedLength frame ≠ frame.length - 12)

/-- The frame check (R123, R124 step 2). -/
def checkFault (frame : Bytes) : Bool :=
  decide (frameCheck (frame.take (frame.length - 4)) ≠ wordOfBytes (frame.drop (frame.length - 4)))

/-- The kind a header gives (12.1). -/
def frameKind (frame : Bytes) : Byte := byteAt frame 0

/-- The unit address a header gives (12.1). -/
def frameUnit (frame : Bytes) : Nat := (byteAt frame 1).toNat

/-! ### The upstream port (R124 to R127) -/

/-- The check of R124 that a frame fails first. -/
inductive UpFault where
  | length
  | frameCheck
  | kind
  | unit
  deriving DecidableEq, Repr

/-- A broadcast the unit takes: its body carries the code of STATUS or of PRODUCTION OFF (R127; log 18). -/
def broadcastTaken (frame : Bytes) : Bool :=
  decide (9 ≤ (frameBody frame).length) && (byteAt (frameBody frame) 0 == 0x01 || byteAt (frameBody frame) 0 == 0x38)

/-- The unit address does not fit the kind (R125 to R127). -/
def State.unitFault (s : State) (frame : Bytes) : Bool :=
  if frameKind frame = kindRecord then decide (frameUnit frame ≠ 31)
  else if frameUnit frame = s.link.address then false
  else if frameUnit frame ≤ 30 then s.link.chainEnd
  else if frameUnit frame = 31 then !broadcastTaken frame
  else true

/-- The first check of R124 that fails. -/
def State.upFault (s : State) (frame : Bytes) : Option UpFault :=
  if lengthFault frame then some .length
  else if checkFault frame then some .frameCheck
  else if frameKind frame ≠ kindRecord ∧ frameKind frame ≠ kindOrder then some .kind
  else if s.unitFault frame then some .unit
  else none

/-- A failed check sets its flag, and the frame is discarded (R124, R133). -/
def State.flagUp (s : State) : UpFault → State
  | .length => { s with link := { s.link with upFlags := { s.link.upFlags with length := true } } }
  | .frameCheck => { s with link := { s.link with upFlags := { s.link.upFlags with frameCheck := true } } }
  | .kind => { s with link := { s.link with upFlags := { s.link.upFlags with kind := true } } }
  | .unit => { s with link := { s.link with upFlags := { s.link.upFlags with unit := true } } }

/-- A frame can be received whole on the upstream port: the link is up and the receiver was ready (R122, R128). -/
def State.receivesUp (s : State) : Bool := s.link.upLink && s.upstreamReady

/-- A frame is placed at the tail of the onward queue (R129). -/
def State.passOnward (s : State) (frame : Bytes) : State :=
  { s with link := { s.link with onwardQueue := s.link.onwardQueue ++ [frame] } }

/-- An ORDER frame that passes the checks is classified by its unit address (R126, R127). -/
def classifyOrder (frame : Bytes) (s : State) : State :=
  if frameUnit frame = s.link.address then settleCore (handOver frame false s)
  else if frameUnit frame = 31 then
    settleCore (handOver frame true (if s.link.chainEnd then s else s.passOnward frame))
  else s.passOnward frame

/-- ORDER_FRAME (R124, R126). -/
def execOrderFrame (frame : Bytes) (s : State) : Host.Outcome State Fault Refusal :=
  if !s.receivesUp then .next s
  else
    match s.upFault frame with
    | some f => .next (s.flagUp f)
    | none => if frameKind frame = kindOrder then .next (classifyOrder frame s) else .next s

/-- Admission hands a record onward: its run is unknown and this unit is not the chain end (R57 step 1). -/
def State.handsOnward (s : State) (frame : Bytes) : Bool :=
  decide (9 ≤ (frameBody frame).length) && !s.link.chainEnd && (s.run (wordAt (frameBody frame) 0)).isNone

/-- A RECORD is decided by admission; one that is not handed onward starts the idle timer (R57, R187). -/
def takeRecordFrame (frame : Bytes) (s : State) : State :=
  if s.handsOnward frame then admitRecord frame s else admitRecord frame s.startIdle

/-- RECORD (R57, R124, R125). -/
def execRecord (frame : Bytes) (s : State) : Host.Outcome State Fault Refusal :=
  if !s.receivesUp then .next s
  else
    match s.upFault frame with
    | some f => .next (s.flagUp f)
    | none => if frameKind frame = kindRecord then .next (settleUnit (takeRecordFrame frame s)) else .next s

/-- UPSTREAM_FRAME_ERROR (R124). -/
def execUpstreamFrameError (frame : Bytes) (s : State) : Host.Outcome State Fault Refusal :=
  if !s.receivesUp then .next s
  else
    match s.upFault frame with
    | some f => .next (s.flagUp f)
    | none => .next s

/-! ### The onward port (R130) -/

/-- RELAY_FRAME (R130). -/
def execRelayFrame (frame : Bytes) (s : State) : Host.Outcome State Fault Refusal :=
  if !(s.link.onLink && s.onwardReady) then .next s
  else if lengthFault frame then .next { s with link := { s.link with onFlags := { s.link.onFlags with length := true } } }
  else if checkFault frame then .next { s with link := { s.link with onFlags := { s.link.onFlags with frameCheck := true } } }
  else if frameKind frame ≠ kindAnswer ∧ frameKind frame ≠ kindNotice then
    .next { s with link := { s.link with onFlags := { s.link.onFlags with kind := true } } }
  else .next { s with link := { s.link with relayQueue := s.link.relayQueue ++ [frame] } }

/-! ### The line ports (R117, R118) -/

/-- A line's link error flags after a check of R117 has failed. -/
def Line.flagged (x : Line) (f : UpFault) : Line :=
  match f with
  | .length => { x with flags := { x.flags with length := true } }
  | .frameCheck => { x with flags := { x.flags with frameCheck := true } }
  | .kind => { x with flags := { x.flags with kind := true } }
  | .unit => x

/-- What an OUTCOME frame is: a fault of R117, or the result it reports. -/
def outcomeOf (frame : Bytes) : Except UpFault CardResult :=
  if lengthFault frame then .error .length
  else if checkFault frame then .error .frameCheck
  else if frameKind frame ≠ kindOutcome then .error .kind
  else if (frameBody frame).length ≠ 9 then .error .length
  else
    match cardResultOf (byteAt (frameBody frame) 8) with
    | none => .error .kind
    | some r => .ok r

/-- OUTCOME (R117, R118). -/
def execOutcome (l : LineNo) (frame : Bytes) (s : State) : Host.Outcome State Fault Refusal :=
  if !(s.mainUp && (s.line l).linkUp) then .next s
  else
    match outcomeOf frame with
    | .error f => .next (s.setLine l ((s.line l).flagged f))
    | .ok r => .next (settleUnit (takeOutcome l (wordAt (frameBody frame) 0) (wordAt (frameBody frame) 4) r s))

end Sys2Proof.Machine
end

