-- ==== Sys2Proof/Machine/Power.lean ====
section
/-! DEFINITION. The Power Controller (chapter 10): loss and return of main power, first power, warm reset, loss of the battery, the
POWER notice. -/

namespace Sys2Proof.Machine

/-! ### The main domain -/

/-- The levels of the line links. -/
def State.lineLinks (s : State) : Vector Bool 8 := s.dispatch.lines.map Line.linkUp

/-- The levels of the sensor inputs. -/
def State.inputs (s : State) : Vector Bool 6 := s.tamper.sensors.map Sensor.input

/-- The Link Controller with its queues, flags, transmitters and memory at their reset values (R136); address and chain end kept
(R135). -/
def LinkController.resetMain (k : LinkController) : LinkController :=
  { LinkController.initial k.upLink k.onLink with address := k.address, chainEnd := k.chainEnd }

/-- The Key Store's items of the main domain: no verify, no copies, and no assembly deadlines (R180, R30). -/
def KeyStore.resetMain (k : KeyStore) : KeyStore :=
  { k with
    verify := none
    verifyWaits := false
    working := Vector.replicate 64 false
    slots := k.slots.map fun x => { x with deadline := none } }

/-- The Power Controller's items of the main domain (R180, R187). -/
def PowerController.resetMain (p : PowerController) : PowerController :=
  { p with settling := none, idleLimit := 60, idle := none }

/-- The main domain at the values each block's chapter gives for main restore and warm reset (R180, R183 step 1). -/
def mainReset (s : State) : State :=
  { s with
    store := s.store.resetMain
    core := .initial
    runs := .initial
    recipes := Recipes.initial
    engine := none
    dispatch := .initial s.lineLinks
    link := s.link.resetMain
    order := .initial
    report := ReportUnit.initial
    time := { s.time with millis := 0 }
    power := s.power.resetMain }

/-! ### The POWER notice (R185) -/

/-- The values of a POWER notice: cause, custody state, seconds, loss time, battery trips and flag, battery zeroisation (R185;
log 11; the last 01H for one that took place, log 40). -/
def powerValues (cause : PowerCause) (s : State) (lossTime : Option Nat) (trips : Option Counter) (zeroised : Option Bool) : Bytes :=
  [cause.code, s.store.custody.code] ++ be32 s.time.seconds.value ++ optionalField 4 (lossTime.map be32) ++
    optionalField 2 (trips.map fun c => [byteOf c.value, flagByte c.limit]) ++
    optionalField 1 (zeroised.map fun z => [flagByte z])

/-- A POWER notice is offered (R185). -/
def offerPower (cause : PowerCause) (lossTime : Option Nat) (trips : Option Counter) (zeroised : Option Bool) (s : State) : State :=
  offer .power cause.code (powerValues cause s lossTime trips zeroised) s

/-! ### The power events -/

/-- MAIN_LOSS (R181). The items of the main domain cease; they stand here at the values the next restore gives them. -/
def execMainLoss (s : State) : Host.Outcome State Fault Refusal :=
  if s.mainUp then
    let t := mainReset s
    .next { t with power := { t.power with supply := .battery, lossTime := some s.time.seconds.value } }
  else .next s

/-- The unit with every item of both domains at its first-power value, and the pins as they stand (R182). -/
def firstPowerState (s : State) : State :=
  { store := .initial, core := .initial, runs := .initial, recipes := Recipes.initial, engine := none,
    dispatch := .initial s.lineLinks, link := .initial s.link.upLink s.link.onLink, order := .initial,
    tamper := .initial s.inputs, report := ReportUnit.initial, time := .initial, power := .initial, free := s.free,
    pending := s.pending }

/-- FIRST_POWER (R182). -/
def execFirstPower (s : State) : Host.Outcome State Fault Refusal :=
  if s.power.supply = .battery ∧ s.power.valid = false then
    .next (offerPower .firstPower none (some .zero) (some false) (firstPowerState s))
  else .next s

/-- BATTERY_LOSS: the battery domain loses its contents and its validity mark (R180). What it held stands at the first-power
values, which nothing can read before the first power that follows. -/
def execBatteryLoss (s : State) : Host.Outcome State Fault Refusal :=
  if s.power.supply = .battery ∧ s.power.valid = true then
    let t := firstPowerState s
    .next { t with power := { t.power with supply := .battery, valid := false } }
  else .next s

/-- The restore's verify begins, or waits for the scrub in progress (R183 step 5, R6). -/
def restoreVerify (s : State) : State :=
  if s.store.scrub.isSome then { s with store := { s.store with verifyWaits := true } } else beginVerify .restore s

/-- Step 6 of R183: the working copies and the idle timer of an OPERATIONAL unit. -/
def resumeWork (s : State) : State := s.readyCopies.startIdle

/-- Steps 1 and 2 of R183, with main power up: the main domain's values and the settling inhibit. -/
def restoreDomains (s : State) : State :=
  let t := mainReset s
  { t with power := { t.power with supply := .main, settling := some 250 } }

/-- Step 3 of R183: the battery trips are handed over, the POWER notice is offered, the mark and the loss time are cleared. -/
def reportRestore (s : State) : State :=
  let t := { s with tamper := { s.tamper with batteryTrips := .zero } }
  let u := offerPower .mainRestore s.power.lossTime (some s.tamper.batteryTrips) (some s.power.batteryZeroised) t
  { u with power := { u.power with batteryZeroised := false, lossTime := none } }

/-- MAIN_RESTORE (R183). -/
def execMainRestore (s : State) : Host.Outcome State Fault Refusal :=
  if s.power.supply = .battery ∧ s.power.valid = true then
    .next (settleCore (resumeWork (restoreVerify (lapseAssemblies (reportRestore (restoreDomains s))))))
  else .next s

/-- The settling inhibit carried across a warm reset: its time remaining from the restarted counter's 0 (R186). -/
def State.settlingLeft (s : State) : Option Word := s.power.settling.map fun d => d - s.time.millis

/-- The main domain after a warm reset: a verify, a waiting verify and the settling inhibit are kept (R180, R184). -/
def warmDomains (s : State) : State :=
  let t := mainReset s
  { t with
    store := { t.store with verify := s.store.verify, verifyWaits := s.store.verifyWaits }
    power := { t.power with settling := s.settlingLeft } }

/-- A verify in progress at a warm reset begins again from slot 0 with its cause kept (R30, R184). -/
def restartVerify (s : State) : State :=
  match s.store.verify with
  | none => s
  | some v => beginVerify v.cause s

/-- WARM_RESET (R184): the warm-reset input becomes asserted while main power is up. The input's level is not kept: each command is an
assertion with the negation before it implied, so that two in a row both reset, the model's choice (log 38). -/
def execWarmReset (s : State) : Host.Outcome State Fault Refusal :=
  if s.mainUp then
    .next
      (settleCore (resumeWork (restartVerify (lapseAssemblies (offerPower .warmReset none none none (warmDomains s))))))
  else .next s

end Sys2Proof.Machine
end

