-- ==== Sys2Proof/Machine/Sending.lean ====
section
/-! DEFINITION. Sending and the links: the line ports (R111, R115), the onward port (R129), the upstream arbiter and port (R131, R132),
loss and return of the links (R122). -/

namespace Sys2Proof.Machine

/-! ### The line ports -/

/-- LINE_SEND_BEGIN: the port begins its oldest frame; the station is ready, the link up, no frame being sent (R115). -/
def execLineSendBegin (l : LineNo) (s : State) : Host.Outcome State Fault Refusal :=
  let x := s.line l
  if s.mainUp ∧ x.linkUp = true ∧ x.sending = false ∧ x.transmit ≠ [] then
    .next (s.setLine l { x with begun := true, sending := true })
  else .next s

/-- LINE_SEND_COMPLETE: the last byte has been sent and the frame leaves the queue (R115). -/
def execLineSendComplete (l : LineNo) (s : State) : Host.Outcome State Fault Refusal :=
  let x := s.line l
  if s.mainUp ∧ x.linkUp = true ∧ x.sending = true then
    .next (s.setLine l { x with transmit := x.transmit.tail, begun := false, sending := false })
  else .next s

/-- LINE_LINK_LOSS: the line gains LINK; a frame being sent stays at the head (R111, R115). With main power off the port is dead
and only the level of the link changes. -/
def execLineLinkLoss (l : LineNo) (s : State) : Host.Outcome State Fault Refusal :=
  let x := s.line l
  if x.linkUp = false then .next s
  else if !s.mainUp then .next (s.setLine l { x with linkUp := false })
  else
    .next
      (settleCore
        (lineNotices s (s.setLine l { x with linkUp := false, sending := false, faults := { x.faults with link := true } })))

/-- LINE_LINK_RESTORE: LINK is removed (R111). -/
def execLineLinkRestore (l : LineNo) (s : State) : Host.Outcome State Fault Refusal :=
  let x := s.line l
  if x.linkUp = true then .next s
  else if !s.mainUp then .next (s.setLine l { x with linkUp := true })
  else .next (settleUnit (lineNotices s (s.setLine l { x with linkUp := true, faults := { x.faults with link := false } })))

/-! ### The onward port -/

/-- ONWARD_SEND_BEGIN: the transmitter takes the oldest frame of the onward queue (R129). -/
def execOnwardSendBegin (s : State) : Host.Outcome State Fault Refusal :=
  match s.link.onwardQueue with
  | [] => .next s
  | f :: rest =>
    if s.mainUp ∧ s.link.onLink = true ∧ s.link.onTx = none then
      .next { s with link := { s.link with onwardQueue := rest, onTx := some f } }
    else .next s

/-- ONWARD_SEND_COMPLETE: the last byte of the frame has been sent (R122, R129). -/
def execOnwardSendComplete (s : State) : Host.Outcome State Fault Refusal :=
  if s.mainUp ∧ s.link.onLink = true ∧ s.link.onTx.isSome = true then .next { s with link := { s.link with onTx := none } }
  else .next s

/-! ### The upstream port -/

/-- The rotation, beginning with the source after one (R131). -/
def Source.after : Source → List Source
  | .answer => [.notice, .relay, .answer]
  | .notice => [.relay, .answer, .notice]
  | .relay => [.answer, .notice, .relay]

/-- A whole notice frame (R172, R123). -/
def noticeFrame (message : Bytes) (tag : Tag) : Bytes := sealFrame (message ++ bytesOfTag tag)

/-- The frame a source has waiting: the oldest notice only once its tag has been computed (R131, R174). -/
def State.waitingFrame (s : State) : Source → Option Bytes
  | .answer => s.order.answer
  | .notice =>
    match s.report.notices with
    | [] => none
    | n :: _ =>
      match n.tag with
      | .ready tag => some (noticeFrame n.message tag)
      | .computing _ => none
  | .relay => s.link.relayQueue.head?

/-- A source gives up its frame: the answer slot frees the Order Unit, the queues lose their oldest (R131, R137). -/
def State.leaveSource (s : State) : Source → State
  | .answer => { s with order := { s.order with answer := none, hand := none } }
  | .notice => { s with report := { s.report with notices := s.report.notices.tail } }
  | .relay => { s with link := { s.link with relayQueue := s.link.relayQueue.tail } }

/-- The transmitter takes a frame from a source, which becomes the source served last (R131). -/
def State.transmitFrom (s : State) (src : Source) (frame : Bytes) : State :=
  let t := s.leaveSource src
  { t with link := { t.link with upTx := some frame, served := src } }

/-- The arbiter's choice: the first source in rotation that has a frame waiting (R131). -/
def State.upstreamChoice (s : State) : Option (Source × Bytes) :=
  s.link.served.after.findSome? fun src => (s.waitingFrame src).map fun f => (src, f)

/-- UPSTREAM_TRANSMIT_CHOICE (R131). -/
def execUpstreamTransmitChoice (s : State) : Host.Outcome State Fault Refusal :=
  if s.mainUp ∧ s.link.upLink = true ∧ s.link.upTx = none then
    match s.upstreamChoice with
    | none => .next s
    | some (src, f) => .next (s.transmitFrom src f)
  else .next s

/-- UPSTREAM_SEND_COMPLETE (R132). -/
def execUpstreamSendComplete (s : State) : Host.Outcome State Fault Refusal :=
  if s.mainUp ∧ s.link.upLink = true ∧ s.link.upTx.isSome = true then .next { s with link := { s.link with upTx := none } }
  else .next s

/-! ### The links of the record ports -/

/-- PORT_LINK_LOSS: a frame being sent stays in its transmitter; one being received is lost without a flag (R122). -/
def execPortLinkLoss (p : Port) (s : State) : Host.Outcome State Fault Refusal :=
  match p with
  | .upstream => .next { s with link := { s.link with upLink := false } }
  | .onward => .next { s with link := { s.link with onLink := false } }

/-- PORT_LINK_RESTORE: sending resumes, a frame in the transmitter first and from its first byte (R122). -/
def execPortLinkRestore (p : Port) (s : State) : Host.Outcome State Fault Refusal :=
  match p with
  | .upstream => .next { s with link := { s.link with upLink := true } }
  | .onward => .next { s with link := { s.link with onLink := true } }

end Sys2Proof.Machine
end

