-- ==== Sys2Proof/Machine/StoreWork.lean ====
section
/-! DEFINITION. The long operations of the Key Store (R18, R24, R27) and the sensor inputs (R155, R158). -/

namespace Sys2Proof.Machine

/-- SLOT_VERIFY_STEP (R24). -/
def execSlotVerifyStep (s : State) : Host.Outcome State Fault Refusal :=
  match s.store.verify with
  | none => .next s
  | some v =>
    if s.coreServes .verify then .next (settleUnit (verifySlot v s.coreResult s.endStep)) else .next s

/-- The scrub pass in progress has ended (R6). -/
def State.endScrub (s : State) : State := { s with store := { s.store with scrub := none } }

/-- ERASE_SCRUB_COMPLETE (R18, R6). -/
def execEraseScrubComplete (s : State) : Host.Outcome State Fault Refusal :=
  match s.store.scrub with
  | some (.erase n) => .next (settleCore (releaseVerify (offerKey .erased [byteOf n.val] s.endScrub)))
  | _ => .next s

/-- ZEROISE_SCRUB_COMPLETE (R27, R6). -/
def execZeroiseScrubComplete (s : State) : Host.Outcome State Fault Refusal :=
  match s.store.scrub with
  | some .zeroise => .next (settleCore (releaseVerify (offerKey .zeroised [] s.endScrub)))
  | _ => .next s

/-- The level that a polarity names as active (R154). -/
def Polarity.level : Polarity → Bool
  | .activeHigh => true
  | .activeLow => false

/-- The level of a sensor's input changes. -/
def State.setInput (s : State) (i : SensorNo) (active : Bool) : State :=
  s.setSensor i { s.sensor i with input := active == (s.sensor i).polarity.level }

/-- SENSOR_INPUT_ACTIVE (R155). Without a supply the monitor does not work and only the level changes (R180). -/
def execSensorInputActive (i : SensorNo) (s : State) : Host.Outcome State Fault Refusal :=
  if (s.sensor i).active then .next s
  else if !s.power.valid then .next (s.setInput i true)
  else .next (settleCore (considerSensor i (s.setInput i true)))

/-- What the return of a sensor's input to inactive does to its status (R155, R158). -/
def inputReturned (i : SensorNo) (s : State) : State :=
  match (s.sensor i).status with
  | .qualifying => s.setSensor i { s.sensor i with status := .idle, timer := none }
  | .tripped => releaseSensor i s
  | .idle => s
  | .latched => s

/-- SENSOR_INPUT_INACTIVE (R155, R158). -/
def execSensorInputInactive (i : SensorNo) (s : State) : Host.Outcome State Fault Refusal :=
  if !(s.sensor i).active then .next s
  else if !s.power.valid then .next (s.setInput i false)
  else .next (settleUnit (inputReturned i (s.setInput i false)))

end Sys2Proof.Machine
end

