-- ==== Sys2Proof/Machine/Timers.lean ====
section
/-! DEFINITION. The expiries of the unit's timers (R170) and the tick that brings them (log 2). -/

namespace Sys2Proof.Machine

/-- A deadline that stands and has been reached while main power is up (R170). -/
def State.due (s : State) : Option Word → Bool
  | none => false
  | some d => s.mainUp && deadlineReached s.time.millis d

/-- LAPSE (R67). -/
def execLapse (run : Word) (offset : Nat) (s : State) : Host.Outcome State Fault Refusal :=
  if !s.mainUp then .next s
  else
    match s.expired run offset with
    | none => .next s
    | some (r, p, l) => .next (settleUnit (lapsePosition l run offset (r.seqOf offset) p s))

/-- ASSEMBLY_LAPSE (R14); while a LOAD COMPONENT works on the slot the deadline reaches it at that order's end (R42). -/
def execAssemblyLapse (n : SlotNo) (s : State) : Host.Outcome State Fault Refusal :=
  if (s.slot n).state = .assembling ∧ s.due (s.slot n).deadline = true ∧ s.loadingSlot ≠ some n then
    .next (settleCore (lapseAssembly n s))
  else .next s

/-- GATE_LAPSE (R149). -/
def execGateLapse (s : State) : Host.Outcome State Fault Refusal :=
  if s.due s.order.gate.deadline then .next s.emptyGate else .next s

/-- SETTLING_EXPIRY (R186). -/
def execSettlingExpiry (s : State) : Host.Outcome State Fault Refusal :=
  if s.due s.power.settling then .next { s with power := { s.power with settling := none } } else .next s

/-- IDLE_MINUTE_DEADLINE: a minute deadline that does not bring the minutes remaining to 0 (R187). -/
def execIdleMinuteDeadline (s : State) : Host.Outcome State Fault Refusal :=
  match s.power.idle with
  | none => .next s
  | some t =>
    if s.due (some t.deadline) = true ∧ 1 < t.minutes then
      .next { s with power := { s.power with idle := some { minutes := t.minutes - 1, deadline := t.deadline + 60000 } } }
    else .next s

/-- IDLE_TIMER_EXPIRY: the minute deadline that brings the minutes remaining to 0 (R187, R188, R25). -/
def execIdleTimerExpiry (s : State) : Host.Outcome State Fault Refusal :=
  match s.power.idle with
  | none => .next s
  | some t =>
    if s.due (some t.deadline) = true ∧ t.minutes ≤ 1 ∧ s.store.custody = .operational then
      .next (settleCore (enterDormant s))
    else .next s

/-- SECONDS_CLOCK_ADVANCE (R171). -/
def execSecondsClockAdvance (s : State) : Host.Outcome State Fault Refusal :=
  if s.power.valid = true ∧ 1000 ≤ s.time.ticks then
    .next { s with time := { s.time with seconds := bumpCounter max32 s.time.seconds, ticks := s.time.ticks - 1000 } }
  else .next s

/-- QUALIFICATION_EXPIRY (R155). -/
def execQualificationExpiry (i : SensorNo) (s : State) : Host.Outcome State Fault Refusal :=
  if s.power.valid = true ∧ (s.sensor i).status = .qualifying ∧ (s.sensor i).timer = some 0 then
    .next (settleCore (trip i s))
  else .next s

/-- WINDOW_END (R162). -/
def execWindowEnd (s : State) : Host.Outcome State Fault Refusal :=
  if s.power.valid = true ∧ s.tamper.window = some 0 then .next (settleCore (closeWindow s)) else .next s

/-! ### The tick -/

/-- The deadline falls at the present count (R170). -/
def State.atDeadline (s : State) (d : Option Word) : Bool := decide (d = some s.time.millis)

/-- The outcome timers of a run that expire at the present count (R62, R170). -/
def State.dueLapses (s : State) (r : Run) : List Instr :=
  (List.range 64).filterMap fun i =>
    match r.position (r.low + i) with
    | none => none
    | some p =>
      if p.state = .out ∧ s.atDeadline (p.dispatched.map fun d => d + BitVec.ofNat 32 r.timeout) = true then
        some (.lapse r.number (r.low + i))
      else none

/-- The expiries of main-domain timers at the present count (R170). -/
def State.dueMain (s : State) : List Instr :=
  (s.runs.table.flatMap s.dueLapses) ++
    ((List.finRange 64).filterMap fun n =>
      if (s.slot n).state = .assembling ∧ s.atDeadline (s.slot n).deadline = true then some (.assemblyLapse n) else none) ++
    (if s.atDeadline s.order.gate.deadline then [.gateLapse] else []) ++
    (if s.atDeadline s.power.settling then [.settlingExpiry] else []) ++
    (match s.power.idle with
      | none => []
      | some t =>
        if s.atDeadline (some t.deadline) then [if 1 < t.minutes then .idleMinuteDeadline else .idleTimerExpiry] else [])

/-- The expiries the Time Base and the Tamper Monitor count on the tick itself (R155, R162, R171). -/
def State.dueBattery (s : State) : List Instr :=
  ((List.finRange 6).filterMap fun i =>
      if (s.sensor i).status = .qualifying ∧ (s.sensor i).timer = some 0 then some (.qualificationExpiry i) else none) ++
    (if s.tamper.window = some 0 then [.windowEnd] else []) ++
    (if 1000 ≤ s.time.ticks then [.secondsClockAdvance] else [])

/-- The counts that rise or fall at a tick (R155, R162, R170, R171). -/
def State.countTick (s : State) : State :=
  { s with
    time := { s.time with
      millis := if s.mainUp then s.time.millis + 1 else s.time.millis
      ticks := s.time.ticks + 1 }
    tamper := { s.tamper with
      sensors := s.tamper.sensors.map fun x => { x with timer := x.timer.map fun t => t - 1 }
      window := s.tamper.window.map fun t => t - 1 } }

/-- One tick of 1 ms: the counts move, and the expiries that fall due join the queue in an order the spec leaves open (log 2,
log 4). Without a supply there is no tick (R180). -/
def tick (s : State) : State :=
  if s.power.valid then
    let t := s.countTick
    let events := (if t.mainUp then t.dueMain else []) ++ t.dueBattery
    let u := t.tookChoices events.length
    { u with pending := u.pending ++ arrange t.free events }
  else s

end Sys2Proof.Machine
end

