-- ==== Sys2Proof/Machine/Dispatch.lean ====
section
/-! DEFINITION. One arm for each command: the call of its meaning. -/

namespace Sys2Proof.Machine

def exec (i : Instr) (s : State) : Host.Outcome State Fault Refusal :=
  match i with
  | .status => Sys2Proof.Machine.execStatus s
  | .grant => Sys2Proof.Machine.execGrant s
  | .loadClear contact => Sys2Proof.Machine.execLoadClear contact s
  | .setUnit contact => Sys2Proof.Machine.execSetUnit contact s
  | .commission contact => Sys2Proof.Machine.execCommission contact s
  | .beginKey => Sys2Proof.Machine.execBeginKey s
  | .loadComponent => Sys2Proof.Machine.execLoadComponent s
  | .loadWrappedKey => Sys2Proof.Machine.execLoadWrappedKey s
  | .lockSlot => Sys2Proof.Machine.execLockSlot s
  | .unlockSlot => Sys2Proof.Machine.execUnlockSlot s
  | .retireSlot => Sys2Proof.Machine.execRetireSlot s
  | .eraseSlot => Sys2Proof.Machine.execEraseSlot s
  | .setCeiling => Sys2Proof.Machine.execSetCeiling s
  | .readSlot => Sys2Proof.Machine.execReadSlot s
  | .wake => Sys2Proof.Machine.execWake s
  | .zeroise => Sys2Proof.Machine.execZeroise s
  | .ackTamper contact => Sys2Proof.Machine.execAckTamper contact s
  | .openRun => Sys2Proof.Machine.execOpenRun s
  | .releaseRun => Sys2Proof.Machine.execReleaseRun s
  | .holdRun => Sys2Proof.Machine.execHoldRun s
  | .addAllowance => Sys2Proof.Machine.execAddAllowance s
  | .closeRun => Sys2Proof.Machine.execCloseRun s
  | .writeOffCard => Sys2Proof.Machine.execWriteOffCard s
  | .deleteRun => Sys2Proof.Machine.execDeleteRun s
  | .readRun => Sys2Proof.Machine.execReadRun s
  | .defineRecipe => Sys2Proof.Machine.execDefineRecipe s
  | .readRecipe => Sys2Proof.Machine.execReadRecipe s
  | .setLine => Sys2Proof.Machine.execSetLine s
  | .setGroupMembers => Sys2Proof.Machine.execSetGroupMembers s
  | .setGroupKey => Sys2Proof.Machine.execSetGroupKey s
  | .setGroupCredit => Sys2Proof.Machine.execSetGroupCredit s
  | .barLine => Sys2Proof.Machine.execBarLine s
  | .unbarLine => Sys2Proof.Machine.execUnbarLine s
  | .clearLine => Sys2Proof.Machine.execClearLine s
  | .productionOn => Sys2Proof.Machine.execProductionOn s
  | .productionOff => Sys2Proof.Machine.execProductionOff s
  | .readLine => Sys2Proof.Machine.execReadLine s
  | .readLinkErrors => Sys2Proof.Machine.execReadLinkErrors s
  | .setSensor => Sys2Proof.Machine.execSetSensor s
  | .resume => Sys2Proof.Machine.execResume s
  | .openCabinet => Sys2Proof.Machine.execOpenCabinet s
  | .closeCabinet => Sys2Proof.Machine.execCloseCabinet s
  | .readTamperRecord => Sys2Proof.Machine.execReadTamperRecord s
  | .setTime => Sys2Proof.Machine.execSetTime s
  | .setNoticeMask => Sys2Proof.Machine.execSetNoticeMask s
  | .setAlarmMask => Sys2Proof.Machine.execSetAlarmMask s
  | .setIdleLimit => Sys2Proof.Machine.execSetIdleLimit s
  | .unknownOrderCode => Sys2Proof.Machine.execUnknownOrderCode s
  | .orderFrame frame => Sys2Proof.Machine.execOrderFrame frame s
  | .record frame => Sys2Proof.Machine.execRecord frame s
  | .upstreamFrameError frame => Sys2Proof.Machine.execUpstreamFrameError frame s
  | .engineCipherStep => Sys2Proof.Machine.execEngineCipherStep s
  | .loadUnwrapEnd => Sys2Proof.Machine.execLoadUnwrapEnd s
  | .answerBuilt => Sys2Proof.Machine.execAnswerBuilt s
  | .noticeBuilt => Sys2Proof.Machine.execNoticeBuilt s
  | .outcome line frame => Sys2Proof.Machine.execOutcome line frame s
  | .lapse run offset => Sys2Proof.Machine.execLapse run offset s
  | .lineSendBegin line => Sys2Proof.Machine.execLineSendBegin line s
  | .lineSendComplete line => Sys2Proof.Machine.execLineSendComplete line s
  | .lineLinkLoss line => Sys2Proof.Machine.execLineLinkLoss line s
  | .lineLinkRestore line => Sys2Proof.Machine.execLineLinkRestore line s
  | .relayFrame frame => Sys2Proof.Machine.execRelayFrame frame s
  | .onwardSendBegin => Sys2Proof.Machine.execOnwardSendBegin s
  | .onwardSendComplete => Sys2Proof.Machine.execOnwardSendComplete s
  | .upstreamTransmitChoice => Sys2Proof.Machine.execUpstreamTransmitChoice s
  | .upstreamSendComplete => Sys2Proof.Machine.execUpstreamSendComplete s
  | .portLinkLoss port => Sys2Proof.Machine.execPortLinkLoss port s
  | .portLinkRestore port => Sys2Proof.Machine.execPortLinkRestore port s
  | .assemblyLapse slot => Sys2Proof.Machine.execAssemblyLapse slot s
  | .gateLapse => Sys2Proof.Machine.execGateLapse s
  | .settlingExpiry => Sys2Proof.Machine.execSettlingExpiry s
  | .idleMinuteDeadline => Sys2Proof.Machine.execIdleMinuteDeadline s
  | .idleTimerExpiry => Sys2Proof.Machine.execIdleTimerExpiry s
  | .secondsClockAdvance => Sys2Proof.Machine.execSecondsClockAdvance s
  | .slotVerifyStep => Sys2Proof.Machine.execSlotVerifyStep s
  | .eraseScrubComplete => Sys2Proof.Machine.execEraseScrubComplete s
  | .zeroiseScrubComplete => Sys2Proof.Machine.execZeroiseScrubComplete s
  | .sensorInputActive sensor => Sys2Proof.Machine.execSensorInputActive sensor s
  | .sensorInputInactive sensor => Sys2Proof.Machine.execSensorInputInactive sensor s
  | .qualificationExpiry sensor => Sys2Proof.Machine.execQualificationExpiry sensor s
  | .windowEnd => Sys2Proof.Machine.execWindowEnd s
  | .mainLoss => Sys2Proof.Machine.execMainLoss s
  | .firstPower => Sys2Proof.Machine.execFirstPower s
  | .mainRestore => Sys2Proof.Machine.execMainRestore s
  | .warmReset => Sys2Proof.Machine.execWarmReset s
  | .keyStoreSideCipherStep => Sys2Proof.Machine.execKeyStoreSideCipherStep s
  | .batteryLoss => Sys2Proof.Machine.execBatteryLoss s

end Sys2Proof.Machine
end

