-- ==== Sys2Proof/Safety.lean ====
section
/-! DEFINITION. What claims about the unit are made of: agreement but for the sharing of the Cipher Core, the event of an order's
decision and the unit its answer is built on, and the invariants a run of the unit keeps. -/

namespace Sys2Proof.Machine

/-! ### Agreement but for the Cipher Core -/

/-- The unit is `u`, but for what the Cipher Core is doing, the steps that wait for it, and the model's count of open choices: all
that the sharing of the Core at the end of an event may change (R32). -/
def SettlesTo (u t : State) : Prop := t = { u with core := t.core, free := t.free }

/-- No step waiting on the Key Store side counts a use when it is begun: no load's unwrap step waits (R42). -/
def State.quietQueue (s : State) : Prop := ∀ k ∈ s.core.queue, k.counts = none

/-- No load of a key is in hand, waiting or about to present its unwrap step (R42). -/
def State.quiet (s : State) : Prop := s.quietQueue ∧ ∀ h l, s.order.hand = some h → h.handling ≠ .loading l

/-! ### The event of an order's decision -/

/-- The order in hand is at the event of a row with this rule, standing as given, while no step that counts a use waits. -/
structure Decides (rule : OrderRule) (h : OrderInHand) (st : Standing) (s : State) : Prop where
  main : s.power.supply = .main
  hand : s.order.hand = some h
  code : rule.matching h.code = true
  standing : s.standing h = some st
  quiet : s.quietQueue

/-- The order in hand is at the event of its row and passes steps 1 to 3 of R140, or has passed them when it was handed over (R141). -/
structure Handles (rule : OrderRule) (h : OrderInHand) (st : Standing) (s : State) : Prop where
  decides : Decides rule h st s
  screened : rule.verdict h s = .ok ()

/-- The order in hand is accepted at the event of a row with this rule, and passes every check of R140, the gate among them. -/
structure Accepting (rule : OrderRule) (h : OrderInHand) (s : State) : Prop where
  handles : Handles rule h .accepted s
  gate : s.order.gate.satisfies h.number rule.cls = true

/-- The unit as an accepted order's own rule finds it: its tag's last step has ended, its number is recorded, and the idle timer is
started (R139, R187). -/
def acceptedState (h : OrderInHand) (s : State) : State :=
  ({ s.endStep with store := { s.store with lastOrder := h.number } }).startIdle

/-- The unit is `u` with the gate emptied and the order in hand answered with this result and these values (R148, R151). -/
def AnswersWith (h : OrderInHand) (r : OrderResult) (values : Bytes) (u t : State) : Prop :=
  SettlesTo (buildAnswer h r values false u.emptyGate) t

/-- An order handled untagged is answered: the gate and the order number are left alone (R141). -/
def AnswersUntagged (h : OrderInHand) (r : OrderResult) (values : Bytes) (u t : State) : Prop :=
  SettlesTo (buildAnswer h r values false u) t

/-- The rule of an order's row; none for the rows that are not orders (7.8). -/
def orderRule : Instr → Option OrderRule
  | .status => some statusRule
  | .grant => some grantRule
  | .loadClear contact => some (loadClearRule contact)
  | .setUnit contact => some (setUnitRule contact)
  | .commission contact => some (commissionRule contact)
  | .ackTamper contact => some (ackTamperRule contact)
  | .beginKey => some beginKeyRule
  | .loadComponent => some loadComponentRule
  | .loadWrappedKey => some loadWrappedKeyRule
  | .lockSlot => some lockSlotRule
  | .unlockSlot => some unlockSlotRule
  | .retireSlot => some retireSlotRule
  | .eraseSlot => some eraseSlotRule
  | .setCeiling => some setCeilingRule
  | .readSlot => some readSlotRule
  | .wake => some wakeRule
  | .zeroise => some zeroiseRule
  | .openRun => some openRunRule
  | .releaseRun => some releaseRunRule
  | .holdRun => some holdRunRule
  | .addAllowance => some addAllowanceRule
  | .closeRun => some closeRunRule
  | .writeOffCard => some writeOffCardRule
  | .deleteRun => some deleteRunRule
  | .readRun => some readRunRule
  | .defineRecipe => some defineRecipeRule
  | .readRecipe => some readRecipeRule
  | .setLine => some setLineRule
  | .setGroupMembers => some setGroupMembersRule
  | .setGroupKey => some setGroupKeyRule
  | .setGroupCredit => some setGroupCreditRule
  | .barLine => some barLineRule
  | .unbarLine => some unbarLineRule
  | .clearLine => some clearLineRule
  | .productionOn => some productionOnRule
  | .productionOff => some productionOffRule
  | .readLine => some readLineRule
  | .readLinkErrors => some readLinkErrorsRule
  | .setSensor => some setSensorRule
  | .resume => some resumeRule
  | .openCabinet => some openCabinetRule
  | .closeCabinet => some closeCabinetRule
  | .readTamperRecord => some readTamperRecordRule
  | .setTime => some setTimeRule
  | .setNoticeMask => some setNoticeMaskRule
  | .setAlarmMask => some setAlarmMaskRule
  | .setIdleLimit => some setIdleLimitRule
  | .unknownOrderCode => some unknownRule
  | .orderFrame _ => none
  | .record _ => none
  | .upstreamFrameError _ => none
  | .engineCipherStep => none
  | .loadUnwrapEnd => none
  | .answerBuilt => none
  | .noticeBuilt => none
  | .outcome _ _ => none
  | .lapse _ _ => none
  | .lineSendBegin _ => none
  | .lineSendComplete _ => none
  | .lineLinkLoss _ => none
  | .lineLinkRestore _ => none
  | .relayFrame _ => none
  | .onwardSendBegin => none
  | .onwardSendComplete => none
  | .upstreamTransmitChoice => none
  | .upstreamSendComplete => none
  | .portLinkLoss _ => none
  | .portLinkRestore _ => none
  | .assemblyLapse _ => none
  | .gateLapse => none
  | .settlingExpiry => none
  | .idleMinuteDeadline => none
  | .idleTimerExpiry => none
  | .secondsClockAdvance => none
  | .slotVerifyStep => none
  | .eraseScrubComplete => none
  | .zeroiseScrubComplete => none
  | .sensorInputActive _ => none
  | .sensorInputInactive _ => none
  | .qualificationExpiry _ => none
  | .windowEnd => none
  | .mainLoss => none
  | .firstPower => none
  | .mainRestore => none
  | .warmReset => none
  | .keyStoreSideCipherStep => none
  | .batteryLoss => none

/-! ### Invariants -/

/-- The steps the Core holds are its users' own (R32): each user has at most one outstanding, a waiting step counts a use only for the
load in hand (R42), a step of a load waits only for the order in hand (R35, R42), and the answer slot is full only while the order in
hand is answered (R137). -/
structure CoreTidy (s : State) : Prop where
  users : (s.core.queue.map KsStep.user).Nodup
  served : ∀ k, s.core.work = .keyStore k false → k.user ∉ s.core.queue.map KsStep.user
  counts : ∀ k ∈ s.core.queue, k.counts ≠ none → k.user = .load ∧ ∃ h l, s.order.hand = some h ∧ h.handling = .loading l
  loads : ∀ k ∈ s.core.queue, k.user = .load →
    ∃ h, s.order.hand = some h ∧ ((∃ l, h.handling = .loading l) ∨ ∃ key, h.handling = .checking key)
  answer : s.order.answer ≠ none → ∃ h, s.order.hand = some h ∧ h.handling = .answered

/-- The bounds the spec gives the tables and queues: Run Table (R43), Staging Queue (R60), Notice Queue (R174), onward and relay
queues (R129, R130), gate (R144), tamper record (R163), credit of the lines (R100). -/
structure Bounded (s : State) : Prop where
  table : s.runs.table.length ≤ 16
  staging : s.runs.staging.length ≤ 32
  notices : s.report.notices.length ≤ 16
  onward : s.link.onwardQueue.length ≤ 8
  relay : s.link.relayQueue.length ≤ 8
  gate : s.order.gate.grants.length ≤ 2
  record : s.tamper.record.length ≤ 8
  limits : ∀ l, 1 ≤ (s.line l).limit ∧ (s.line l).limit ≤ 8
  credit : ∀ l, (s.line l).occupied ≤ 8

/-- The orders that pass in ZEROISED: STATUS, ACK TAMPER and READ TAMPER RECORD (R141). -/
def zeroisedCodes : List Byte := [0x01, 0x1B, 0x44]

/-- While the custody state is ZEROISED, every key slot is EMPTY (R29); no verify is visiting a slot (R28); a load in hand will have
its results discarded (R42); no check value of LOAD CLEAR is being computed, and an order that has passed the checks of R141 is one
that R141 lets pass in ZEROISED. -/
def ZeroisedEmpty (s : State) : Prop :=
  s.store.custody = .zeroised →
    (∀ n, (s.slot n).state = .empty) ∧ s.store.verify = none ∧
      ∀ h, s.order.hand = some h →
        (∀ l, h.handling = .loading l → l.zeroised = true) ∧ (∀ key, h.handling ≠ .checking key) ∧
          (h.handling = .screened → h.code ∈ zeroisedCodes)

/-- The books of one run: the law of R62, the low mark's bound (R56), the allowance's bound (R53), OVERSPOIL while the spoils exceed
the allowance (R52), and the agreement of state and hold causes (R45). -/
structure Run.Lawful (r : Run) : Prop where
  cards : r.issues + r.reissues = r.done + r.spoiled + r.countState .out
  low : r.low ≤ r.quantity
  allowance : r.allowance ≤ r.quantity
  overspoil : r.allowance < r.spoiled → r.holds.overspoil = true
  live : r.state = .live → r.holds.isEmpty = true
  held : r.state = .held → r.holds.isEmpty = false

/-- The books of every run are lawful, and run numbers are unique in the table (R43). -/
structure BooksKept (s : State) : Prop where
  unique : (s.runs.table.map Run.number).Nodup
  lawful : ∀ r ∈ s.runs.table, r.Lawful

end Sys2Proof.Machine
end

