-- ==== Sys2Proof/Certificates/Slice0/Obligations.lean ====
section
/-! DEFINITION. The statements about the unit, for the provers. Where an event ends with the sharing of the Cipher Core, a statement
gives the unit up to that sharing (`SettlesTo`, `AnswersWith`); what the sharing does is a statement of its own (R32). -/

open Sys2Proof Sys2Proof.Machine

/-! ### The machine -/

/-- A step takes the command at the front of the queue and runs it on the unit with the queue's rest. -/
def Obligations.StepRunsFrontCommand : Prop :=
  ∀ (c : Instr) (rest : List Instr) (s : State), s.pending = c :: rest → step s = exec c { s with pending := rest }

/-- A step on an empty queue is one tick of 1 ms (the model's choice, log 2): the millisecond counter counts while main power is up
(R170), the ticks of the seconds clock, the qualification timers and the window count while a supply stands (R155, R161, R171), the
expiries that fall due join the queue in some order, and nothing else changes; without a supply nothing happens (R180). What falls
due, each once: a main-domain timer whose deadline is the present count (R14, R62, R149, R170, R186, R187); a qualification or a
window with no time left (R155, R162); the seconds clock at 1,000 ticks (R171). The model's choice: the two rows of the idle timer
(log 28). -/
def Obligations.IdleStepTicks : Prop :=
  (
    ∀ s : State, s.pending = [] → ∃ t, step s = .next t ∧
    (s.power.valid = false → t = s) ∧
    (s.power.valid = true →
      t.time.millis = (if s.power.supply = .main then s.time.millis + 1 else s.time.millis) ∧
      t.time.ticks = s.time.ticks + 1 ∧ t.time.seconds = s.time.seconds ∧
      (∀ i, t.sensor i = { s.sensor i with timer := (s.sensor i).timer.map fun n => n - 1 }) ∧
      t.tamper.window = s.tamper.window.map (fun n => n - 1) ∧
      t.pending.Perm ((if s.power.supply = .main then s.countTick.dueMain else []) ++ s.countTick.dueBattery) ∧
      t = { s with
        time := t.time, tamper := { s.tamper with sensors := t.tamper.sensors, window := t.tamper.window },
        pending := t.pending, free := t.free })) ∧
  (
    ∀ (s : State) (i : Instr),
      let now := s.time.millis
      (i ∈ s.dueMain ↔
        (∃ r o p d, r ∈ s.runs.table ∧ r.position o = some p ∧ p.state = .out ∧ p.dispatched = some d ∧
          d + BitVec.ofNat 32 r.timeout = now ∧ i = .lapse r.number o) ∨
        (∃ n, (s.slot n).state = .assembling ∧ (s.slot n).deadline = some now ∧ i = .assemblyLapse n) ∨
        (s.order.gate.deadline = some now ∧ i = .gateLapse) ∨ (s.power.settling = some now ∧ i = .settlingExpiry) ∨
        ∃ m, s.power.idle = some { minutes := m, deadline := now } ∧
          i = if 2 ≤ m then .idleMinuteDeadline else .idleTimerExpiry) ∧
      (i ∈ s.dueBattery ↔
        (∃ j, (s.sensor j).status = .qualifying ∧ (s.sensor j).timer = some 0 ∧ i = .qualificationExpiry j) ∨
        (s.tamper.window = some 0 ∧ i = .windowEnd) ∨ (1000 ≤ s.time.ticks ∧ i = .secondsClockAdvance)) ∧
      ((s.runs.table.map Run.number).Nodup → (s.dueMain ++ s.dueBattery).Nodup))

/-- What first power leaves (R182): every item at the value its chapter gives. First power, at a unit that has lost both supplies,
leaves the reset state but for the levels of its pins (R180, R182, R185). The model's choice: the bytes of the POWER notice and the
pins, which it keeps (log 3, log 11). The battery zeroisation that did not take place is 00H (the model's choice, log 40). -/
def Obligations.FirstPower : Prop :=
  (
    let s := State.reset
    (∀ n, s.slot n = Slot.blank false) ∧ s.store.custody = .factory ∧ s.store.lastOrder = 0 ∧ s.suspended = false ∧
    s.busy = false ∧ s.core.work = .idle ∧ s.core.queue = [] ∧ s.core.engineWaits = none ∧
    s.runs.table = [] ∧ s.runs.staging = [] ∧ (∀ r, s.recipe r = none) ∧ s.engine = none ∧
    (∀ l, (s.line l).keySlot = none ∧ (s.line l).limit = 2 ∧ (s.line l).occupied = 0 ∧ (s.line l).barred = false ∧
      (s.line l).consecutive = 0 ∧ (s.line l).transmit = [] ∧ s.reported l = .off) ∧
    (∀ g, s.group g = 0) ∧ s.dispatch.production = false ∧ s.link.address = 0 ∧ s.link.chainEnd = true ∧
    s.link.onwardQueue = [] ∧ s.link.relayQueue = [] ∧ s.link.served = .relay ∧
    s.order.hand = none ∧ s.order.answer = none ∧ s.order.gate.grants = [] ∧
    (∀ i, (s.sensor i).enable = false ∧ (s.sensor i).status = .idle ∧ (s.sensor i).qualification = 0) ∧
    s.tamper.window = none ∧ s.tamper.record = [] ∧ s.report.noticeMask = 0x01FF ∧ s.report.notices = [Notice.firstPower] ∧
    s.time.millis = 0 ∧ s.time.seconds = .zero ∧ s.power.supply = .main ∧ s.power.valid = true ∧ s.power.settling = none ∧
    s.power.idleLimit = 60 ∧ s.power.idle = none ∧
    (∀ c, s.holds c = true ↔ c = .commissioning) ∧ s.alarmOutput = false) ∧
  (
    ∀ s : State, s.power.supply = .battery → s.power.valid = false →
      exec .firstPower s = .next
        { State.reset with
          dispatch := .initial (s.dispatch.lines.map Line.linkUp), link := .initial s.link.upLink s.link.onLink,
          tamper := .initial (s.tamper.sensors.map Sensor.input), free := s.free, pending := s.pending })

/-! ### Invariants -/

/-- The tables and queues stay within their bounds (R43, R60, R100, R129, R130, R144, R163, R174). -/
def Obligations.BoundsKept : Prop := ∀ s t : State, Bounded s → step s = .next t → Bounded t

/-- While the unit is ZEROISED every slot is EMPTY, whatever comes (R28, R29): no verify visits a slot, a load in hand has lost its
results (R42), no LOAD CLEAR waits for its check value, and an order in hand that has passed the checks of R141 is one that passes in
ZEROISED. -/
def Obligations.ZeroisedStaysEmpty : Prop := ∀ s t : State, ZeroisedEmpty s → step s = .next t → ZeroisedEmpty t

/-- The books of every run balance after every event: each card that has gone out is DONE, spoiled or OUT (R62), and the run's state
agrees with its hold causes (R45, R52, R53, R56). -/
def Obligations.BooksStayLawful : Prop := ∀ s t : State, BooksKept s → step s = .next t → BooksKept t

/-- The Core's steps stay its users' own: at most one of each user is outstanding, and a waiting step that counts a use belongs to the
load in hand, as does every waiting step of a load, but for LOAD CLEAR's check value (R32, R35, R42). -/
def Obligations.CoreStaysTidy : Prop := ∀ s t : State, CoreTidy s → step s = .next t → CoreTidy t

/-- The four invariants hold at reset. -/
def Obligations.InvariantsAtReset : Prop :=
  Bounded State.reset ∧ ZeroisedEmpty State.reset ∧ BooksKept State.reset ∧ CoreTidy State.reset

/-! ### Cipher functions -/

/-- E and D under one key undo each other (R31). -/
def Obligations.CipherInverts : Prop :=
  ∀ key x : Block, cipherD key (cipherE key x) = x ∧ cipherE key (cipherD key x) = x

/-- The chain tag (R34): the padded message is the message, 80H and 00H bytes, 16 × (floor(L / 16) + 1) long; it is taken in blocks of
16 bytes; each chain value is E of the one before it XOR the block; the tag is the first 8 bytes of the last. The steps a requester
presents one after another compute those chain values, and the step known as the last is the n-th. -/
def Obligations.ChainTagIsR34 : Prop :=
  ∀ (key : Block) (bs : Bytes),
    let n := bs.length / 16 + 1
    let b : Nat → Block := fun i => blockOfBytes (sliceBytes (padMessage bs) (16 * i) 16)
    (padMessage bs).length = 16 * n ∧
    (∃ k, k ≤ 15 ∧ padMessage bs = bs ++ 0x80 :: List.replicate k 0x00) ∧
    tagBlocks bs = (List.range n).map b ∧
    ∃ V : Nat → Block, V 0 = 0 ∧ (∀ i, i < n → V (i + 1) = cipherE key (V i ^^^ b i)) ∧
      bytesOfTag (chainTag key bs) = (bytesOfBlock (V n)).take 8 ∧
      ∀ i, i < n →
        let j := (fun j : TagJob => j.next j.step.result)^[i] (TagJob.start key bs)
        j.step.result = V (i + 1) ∧ (j.isLast = true ↔ i + 1 = n)

/-- An identity field is valid when its length is 12 to 19 and every byte an ASCII digit; any other fails the record BAD IDENTITY
before any use of a key is asked for (R37). -/
def Obligations.IdentityIsR37 : Prop :=
  ∀ bs : Bytes,
    (validIdentity bs = true ↔ 12 ≤ bs.length ∧ bs.length ≤ 19 ∧ ∀ b ∈ bs, 0x30 ≤ b.toNat ∧ b.toNat ≤ 0x39) ∧
    ∀ (a : ActionInst) (rest : List ActionInst) (w : Work) (s : State), a.kind = .derive → w.source a.source = some bs →
      validIdentity bs = false → walk (a :: rest) w s = (.fails { w with todo := a :: rest } .badIdentity, s)

/-- The derivation block (R38): nibble i of bytes 0 to 9 is FH before the digits and a digit's value in them, right-aligned, the first
nibble of a byte in its high half; bytes 10 and 11 hold the variant, high byte first; bytes 12 to 15 are 00H. -/
def Obligations.DerivationBlockIsR38 : Prop :=
  ∀ (digits : Bytes) (variant : BitVec 16), validIdentity digits = true →
    let b := bytesOfBlock (derivationBlock digits variant)
    let nibble : Nat → Nat := fun i => if i % 2 = 0 then (byteAt b (i / 2)).toNat / 16 else (byteAt b (i / 2)).toNat % 16
    b.length = 16 ∧
    (∀ i, i < 20 - digits.length → nibble i = 15) ∧
    (∀ k, k < digits.length → nibble (20 - digits.length + k) = (byteAt digits k).toNat - 0x30) ∧
    b.drop 10 = [byteOf (variant.toNat / 256), byteOf variant.toNat, 0, 0, 0, 0]

/-- The spoil allowance (R49): Q × P / 1,000 rounded half to even, and never above Q; OPEN RUN's run has it. -/
def Obligations.AllowanceIsR49 : Prop :=
  (∀ q p : Nat, 1 ≤ q → q ≤ 2000000 → p ≤ 250 →
    q * p ≤ 500000000 ∧
    (q * p % 1000 < 500 → spoilAllowance q p = min (q * p / 1000) q) ∧
    (500 < q * p % 1000 → spoilAllowance q p = min (q * p / 1000 + 1) q) ∧
    (q * p % 1000 = 500 → q * p / 1000 % 2 = 0 → spoilAllowance q p = min (q * p / 1000) q) ∧
    (q * p % 1000 = 500 → q * p / 1000 % 2 = 1 → spoilAllowance q p = min (q * p / 1000 + 1) q)) ∧
  ∀ (ps : Bytes) (x : RunNames),
    (openedRun ps x).allowance = spoilAllowance (openedRun ps x).quantity (openedRun ps x).spoilRate

/-! ### Frames and encodings -/

/-- A sealed frame passes the length check and the frame check of a receiver, and its header and body are read back as they were sent
(R123, R124). The length check fails for a frame longer than 1,012 bytes or shorter than 12, for a body length field above 1,000, and
for one that is not the number of bytes between header and frame check; the frame check fails when the last 4 bytes are not the check
of those before them (R124). The check is the register of R123, preset to FFFFFFFFH, each byte taken into it over 8 places with the
generator 04C11DB7H in reverse order, and inverted at the end; over the digits 1 to 9 it is CBF43926H. -/
def Obligations.SealedFrameIsReadBack : Prop :=
  (
    ∀ (kind : Byte) (unit : Nat) (number : Word) (body : Bytes), unit < 256 → body.length ≤ 1000 →
    let f := sealFrame (frameHeader kind unit body.length number ++ body)
    lengthFault f = false ∧ checkFault f = false ∧ frameKind f = kind ∧ frameUnit f = unit ∧
      statedLength f = body.length ∧ wordOfBytes (sliceBytes f 4 4) = number ∧ frameBody f = body) ∧
  (
    ∀ f : Bytes,
      let stated := 256 * (byteAt f 2).toNat + (byteAt f 3).toNat
      (lengthFault f = true ↔ 1012 < f.length ∨ f.length < 12 ∨ 1000 < stated ∨ stated + 12 ≠ f.length) ∧
      (12 ≤ f.length →
        (checkFault f = true ↔ f.drop (f.length - 4) ≠ be32 (frameCheck (f.take (f.length - 4))).toNat))) ∧
  (
    let place : Word → Word := fun r => if r.getLsbD 0 = true then (r >>> 1) ^^^ 0xEDB88320 else r >>> 1
    (∀ bs : Bytes, frameCheck bs = ~~~bs.foldl (fun r b => place^[8] (r ^^^ b.setWidth 32)) 0xFFFFFFFF) ∧
    (∀ i, i < 32 → (0xEDB88320 : Word).getLsbD i = (0x04C11DB7 : Word).getLsbD (31 - i)) ∧
    frameCheck [0x31, 0x32, 0x33, 0x34, 0x35, 0x36, 0x37, 0x38, 0x39] = 0xCBF43926)

/-- A record body that spells run, sequence number and 1 to 32 fields, no tag twice, each 1 to 200 bytes, is read as those fields
(R57, R189). The action records that READ RECIPE writes are read back by DEFINE RECIPE as the same actions (R80, R81, 12.2). -/
def Obligations.RecordsAreReadBack : Prop :=
  (
    ∀ (run seq : Word) (fs : List Field), 1 ≤ fs.length → fs.length ≤ 32 → (fs.map Field.tag).Nodup →
      (∀ f ∈ fs, 1 ≤ f.value.length ∧ f.value.length ≤ 200) →
      recordFields (be32 run.toNat ++ be32 seq.toNat ++ [byteOf fs.length] ++ fieldBytes fs) = some fs) ∧
  (
    ∀ (actions : List Action) (rest : Bytes),
      (∀ a ∈ actions, a.source < 256 ∧ a.result < 256 ∧ a.repeats < 256) →
      actionsOf actions.length (actions.flatMap Action.report ++ rest) = .ok actions)

/-! ### The sharing of the Core, and key uses -/

/-- What every event ends with (R32): the users present their steps, and the Core is never left idle while a step waits or a user has
one to present; a step in progress goes on, and an idle Core takes the Key Store side's oldest step before the engine's. While no load
is in hand nothing but the Core changes. The model's choice: all steps of an event are presented before the Core chooses (log 24). -/
def Obligations.CoreServesWaitingSteps : Prop :=
  ∀ s : State,
    (s.quiet → SettlesTo s (settleCore s)) ∧
    ((settleCore s).core.work = .idle →
      (settleCore s).core.queue = [] ∧ (settleCore s).core.engineWaits = none ∧ ∀ u, (settleCore s).wantedStep u = none) ∧
    (s.core.work ≠ .idle → (settleCore s).core.work = s.core.work) ∧
    (∀ k rest, s.core.work = .idle → s.core.queue = k :: rest → (settleCore s).core.work = .keyStore k false) ∧
    (∀ c, s.core.work = .idle → s.core.queue = [] → (∀ u, s.wantedStep u = none) → s.core.engineWaits = some c →
      (settleCore s).core.work = .engine c false ∧ (settleCore s).core.engineWaits = none)

/-- The store's answer to a request for one use (R20, R21): the checks in order, what each refusal gives, and the counted use. A slot
that ceases to be usable gives KEY to every run in DEFINED, LIVE or HELD that names it, and a LIVE one becomes HELD; no other run and
nothing else changes (R23, R45, R46). The model's choice: the KEY notice SPENT carries the use counter without its limit flag (log
36). -/
def Obligations.KeyUseIsAnswered : Prop :=
  (
    ∀ (n : SlotNo) (u : UseKind) (s : State),
      let k := s.slot n
      let counted : Slot :=
        { k with
          uses := if k.uses.value < 4294967295 then { k.uses with value := k.uses.value + 1 } else { k.uses with limit := true } }
      (s.store.custody ≠ .operational ∨ s.suspended = true ∨ k.state ≠ .active ∨ k.cls ≠ some u.cls →
        requestUse n u s = (.error .keyUnavailable, s)) ∧
      (s.store.custody = .operational → s.suspended = false → k.state = .active → k.cls = some u.cls →
        (k.ceiling ≠ 0 → k.ceiling ≤ k.uses.value →
          requestUse n u s =
            (.error .keySpent, offer .key 0x04 ([byteOf n.val] ++ be32 k.uses.value ++ be32 k.ceiling) s)) ∧
        (k.ceiling = 0 ∨ k.uses.value < k.ceiling →
          (counted.uses.value ≠ k.ceiling ∨ k.ceiling = 0 →
            requestUse n u s = (.ok (k.key.getD 0), s.setSlot n counted)) ∧
          (counted.uses.value = k.ceiling → k.ceiling ≠ 0 →
            requestUse n u s = (.ok (k.key.getD 0), lineNotices s ((s.setSlot n counted).reportUnusable n)))))) ∧
  (
    ∀ (n : SlotNo) (s : State),
      s.reportUnusable n =
        { s with
          runs := { s.runs with
            table := s.runs.table.map fun r =>
              if (r.master = n ∨ r.prep = some n) ∧ (r.state = .defined ∨ r.state = .live ∨ r.state = .held) then
                { r with holds := { r.holds with key := true }, state := if r.state = .live then .held else r.state }
              else r } })

/-- The reported state of a line (R101): OFF unless its key slot is usable, then BARRED, then FAULTED, then READY. The LINE notices of
an event (R101): one for each line whose reported state has changed, in ascending line order, with the line, its state before and
after, barred, the fault causes (bit 0 LINK, bit 1 LAPSES) and the occupied credit. The model's choice: the credit in one byte (log
33). -/
def Obligations.ReportedLineState : Prop :=
  (
    ∀ (s : State) (l : LineNo),
    let x := s.line l
    let usable := ∃ n, x.keySlot = some n ∧ (s.slot n).state = .active ∧
      ((s.slot n).ceiling = 0 ∨ (s.slot n).uses.value < (s.slot n).ceiling)
    (s.reported l = .off ↔ ¬usable) ∧
    (s.reported l = .barred ↔ usable ∧ x.barred = true) ∧
    (s.reported l = .faulted ↔ usable ∧ x.barred = false ∧ (x.faults.link = true ∨ x.faults.lapses = true)) ∧
    (s.reported l = .ready ↔ usable ∧ x.barred = false ∧ x.faults.link = false ∧ x.faults.lapses = false)) ∧
  (
    ∀ was s : State, ∃ changed : List LineNo,
      changed.Pairwise (fun a b => a.val < b.val) ∧ (∀ l, l ∈ changed ↔ was.reported l ≠ s.reported l) ∧
      lineNotices was s =
        changed.foldl
          (fun t l =>
            let x := s.line l
            offer .line 0x00
              [byteOf l.val, (was.reported l).code, (s.reported l).code, if x.barred then 0x01 else 0x00,
                byteOf (x.faults.link.toNat + 2 * x.faults.lapses.toNat), byteOf x.occupied] t) s) ∧
  [LineState.off, .barred, .faulted, .ready].map LineState.code = [0x00, 0x01, 0x02, 0x03]

/-! ### Notices -/

/-- Offering a notice (R172 to R175): nothing while main power is off or the kind is disabled; otherwise a place at the tail of the
Notice Queue while fewer than 16 stand there, and otherwise one more notice lost. The notice's message is header, kind, variant,
values and summary; its tag is to be computed under slot 0 while that is ACTIVE and 00H bytes otherwise (R36). Building an answer
(R151, R152, R190): header with this unit's address, the body length and the order's number; the order code, 00H when the body was too
short for one; the result; the values; the summary. It is tagged under slot 0 while that is ACTIVE, and enters the answer slot when
the tag has been computed; BAD TAG and STALE NUMBER answers, and all while slot 0 is not ACTIVE, carry 00H bytes and enter it at once.
-/
def Obligations.NoticeIsOffered : Prop :=
  (
    ∀ (kind : NoticeKind) (variant : Byte) (values : Bytes) (s : State),
    let message := frameHeader 0x04 s.link.address (values.length + 12) s.time.millis ++ [byteOf kind.code, variant] ++ values ++
      be16 s.summary.toNat
    let tag : NoticeTag :=
      match (s.slot 0).state, (s.slot 0).key with
      | .active, some key => .computing (TagJob.start key message)
      | _, _ => .ready 0
    (s.power.supply = .battery ∨ s.report.noticeMask.getLsbD (kind.code - 1) = false → offer kind variant values s = s) ∧
    (s.power.supply = .main → s.report.noticeMask.getLsbD (kind.code - 1) = true →
      (s.report.notices.length < 16 →
        offer kind variant values s =
          { s with report := { s.report with notices := s.report.notices ++ [{ message := message, tag := tag }] } }) ∧
      (16 ≤ s.report.notices.length →
        offer kind variant values s =
          { s with
            report := { s.report with
              lost := if s.report.lost.value < 65535 then { s.report.lost with value := s.report.lost.value + 1 }
                else { s.report.lost with limit := true } } }))) ∧
  (
    ∀ (h : OrderInHand) (r : OrderResult) (values : Bytes) (untagged : Bool) (s : State),
      let message :=
        frameHeader 0x03 s.link.address (values.length + 12) (wordOfBytes (sliceBytes h.header 4 4)) ++
          [if h.body.length < 9 then 0x00 else byteAt h.body 0, r.code] ++ values ++ be16 s.summary.toNat
      let hand : Handling → Option Bytes → State := fun x a =>
        { s with order := { s.order with hand := some { h with handling := x }, answer := a } }
      (untagged = true ∨ (s.slot 0).state ≠ .active ∨ (s.slot 0).key = none →
        buildAnswer h r values untagged s = hand .answered (some (sealFrame (message ++ [0, 0, 0, 0, 0, 0, 0, 0])))) ∧
      (untagged = false → (s.slot 0).state = .active → ∀ key, (s.slot 0).key = some key →
        buildAnswer h r values untagged s = hand (.answering message (TagJob.start key message)) s.order.answer)) ∧
  [OrderResult.done, .started, .clamped, .badTag, .staleNumber, .range, .notPermitted, .gate, .busy, .settling, .noSuch, .inUse,
      .checkMismatch, .sameCustodian, .locked, .exists, .dormant, .suspended].map OrderResult.code =
    [0x00, 0x01, 0x02, 0x10, 0x11, 0x12, 0x13, 0x14, 0x15, 0x16, 0x17, 0x18, 0x19, 0x1A, 0x1B, 0x1C, 0x1D, 0x1E]

/-! ### The decision of an order -/

/-- The catalogue (7.8, R143, R189): each order's code, parameter length, class, and the custody states that admit it. The rule of a
row matches its own code alone. -/
def Obligations.OrderCatalogue : Prop :=
  let all : List Custody := [.factory, .operational, .dormant, .zeroised]
  let reads : List Custody := [.operational, .dormant]
  let work : List Custody := [.operational]
  let entries : List (Instr × Byte × Nat × OrderClass × List Custody) :=
    [(.status, 0x01, 1, .plain, all), (.grant, 0x02, 5, .grant, reads), (.loadClear true, 0x03, 20, .plain, [.factory]),
      (.setUnit true, 0x04, 2, .plain, [.factory]), (.commission true, 0x05, 0, .plain, [.factory]),
      (.beginKey, 0x10, 14, .single, work), (.loadComponent, 0x11, 18, .single, work),
      (.loadWrappedKey, 0x12, 30, .single, work), (.lockSlot, 0x13, 1, .single, work), (.unlockSlot, 0x14, 1, .dual, work),
      (.retireSlot, 0x15, 1, .single, work), (.eraseSlot, 0x16, 1, .dual, work), (.setCeiling, 0x17, 5, .single, work),
      (.readSlot, 0x18, 1, .plain, reads), (.wake, 0x19, 0, .single, reads), (.zeroise, 0x1A, 0, .plain, reads),
      (.ackTamper true, 0x1B, 0, .dual, [.operational, .zeroised])] ++
    [(.openRun, 0x20, 23, .plain, work), (.releaseRun, 0x21, 4, .plain, work), (.holdRun, 0x22, 4, .plain, work),
      (.addAllowance, 0x23, 6, .single, work), (.closeRun, 0x24, 4, .plain, work), (.writeOffCard, 0x25, 8, .plain, work),
      (.deleteRun, 0x26, 4, .plain, work), (.readRun, 0x27, 4, .plain, reads), (.readRecipe, 0x29, 1, .plain, reads),
      (.setLine, 0x30, 4, .plain, work), (.setGroupMembers, 0x31, 2, .plain, work), (.setGroupKey, 0x32, 2, .plain, work),
      (.setGroupCredit, 0x33, 2, .plain, work), (.barLine, 0x34, 1, .plain, work), (.unbarLine, 0x35, 1, .plain, work),
      (.clearLine, 0x36, 1, .plain, work), (.productionOn, 0x37, 0, .plain, work), (.productionOff, 0x38, 0, .plain, work),
      (.readLine, 0x39, 2, .plain, reads), (.readLinkErrors, 0x3A, 0, .plain, reads)] ++
    [(.setSensor, 0x40, 7, .dual, work), (.resume, 0x41, 0, .dual, work), (.openCabinet, 0x42, 1, .dual, work),
      (.closeCabinet, 0x43, 0, .plain, work), (.readTamperRecord, 0x44, 0, .plain, all), (.setTime, 0x48, 4, .plain, work),
      (.setNoticeMask, 0x49, 2, .plain, work), (.setAlarmMask, 0x4A, 2, .plain, work), (.setIdleLimit, 0x4B, 1, .plain, work)]
  (∀ e ∈ entries, ∃ rule, orderRule e.1 = some rule ∧ rule.known = true ∧ (∀ b, rule.matching b = (b == e.2.1)) ∧
    (∀ ps, rule.fits ps = decide (ps.length = e.2.2.1)) ∧ rule.cls = e.2.2.2.1 ∧
    ∀ c, rule.passed c = e.2.2.2.2.contains c) ∧
  defineRecipeRule.known = true ∧ (∀ b, defineRecipeRule.matching b = (b == 0x28)) ∧
  (∀ ps, defineRecipeRule.fits ps = decide (ps.length = 2 + 7 * (byteAt ps 1).toNat)) ∧ defineRecipeRule.cls = .plain ∧
  (∀ c, defineRecipeRule.passed c = work.contains c) ∧
  unknownRule.known = false ∧
  ∀ b, unknownRule.matching b = true ↔ (∀ e ∈ entries, b ≠ e.2.1) ∧ b ≠ 0x28

/-- How an order is met (R36, R138, R141, R150): a broadcast comes into hand as it is. In FACTORY and ZEROISED a directed order is
screened at once, without a tag: an unknown code is refused NO SUCH, a wrong length RANGE, a custody state that does not admit the
order NOT PERMITTED; one that passes comes into hand, a LOAD CLEAR to wait for its key's check value. Otherwise the tag over header
and body is computed under slot 0, or under the granting custodian's slot, when that slot is ACTIVE, and the order fails
authentication when it is not. How it then stands (R138, R139): BAD TAG unless all 8 bytes agree and the slot is still ACTIVE; then
STALE NUMBER unless the order's number, unsigned, is above the last accepted; otherwise accepted; untagged, or as a broadcast, when no
tag is compared. The model's choice: bodies too short to carry a code, the check value of LOAD CLEAR, and the row of an order's
decision (log 14, log 18, log 19). -/
def Obligations.OrdersAreAuthenticated : Prop :=
  (
    ∀ (s : State) (frame : Bytes),
      let body := frameBody frame
      let met : Handling → State := fun x =>
        { s with
          order := { s.order with hand := some { header := frame.take 8, body := body, broadcast := false, handling := x } } }
      let message := frame.take 8 ++ body.take (body.length - 8)
      let plain : OrderInHand := { header := frame.take 8, body := body, broadcast := false, handling := .untagged }
      handOver frame true s = { s with order := { s.order with hand := some { plain with broadcast := true } } } ∧
      (∀ (i : Instr) (rule : OrderRule), s.store.custody = .factory ∨ s.store.custody = .zeroised → orderRule i = some rule →
        rule.matching plain.code = true →
        (rule.known = false → handOver frame false s = buildAnswer plain .noSuch [] false s) ∧
        (rule.known = true → rule.fits plain.params = false → handOver frame false s = buildAnswer plain .range [] false s) ∧
        (rule.known = true → rule.fits plain.params = true →
          (rule.passed s.store.custody = false → handOver frame false s = buildAnswer plain .notPermitted [] false s) ∧
          (rule.passed s.store.custody = true →
            (byteAt body 0 = 0x03 → handOver frame false s = met (.checking (blockOfBytes (sliceBytes body 2 16)))) ∧
            (byteAt body 0 ≠ 0x03 → handOver frame false s = met .screened)))) ∧
      (s.store.custody = .operational ∨ s.store.custody = .dormant →
        (∀ key, 8 ≤ body.length → ¬(9 ≤ body.length ∧ byteAt body 0 = 0x02) → (s.slot 0).state = .active →
          (s.slot 0).key = some key → handOver frame false s = met (.comparing 0 (TagJob.start key message))) ∧
        (∀ (n : SlotNo) (key : Block), 10 ≤ body.length → byteAt body 0 = 0x02 → 1 ≤ n.val → n.val ≤ 6 →
          (byteAt body 1).toNat = n.val → (s.slot n).state = .active → (s.slot n).key = some key →
          handOver frame false s = met (.comparing n (TagJob.start key message))) ∧
        (body.length < 8 ∨ (¬(9 ≤ body.length ∧ byteAt body 0 = 0x02) ∧ (s.slot 0).state ≠ .active) ∨
            (body.length = 9 ∧ byteAt body 0 = 0x02) ∨
            (10 ≤ body.length ∧ byteAt body 0 = 0x02 ∧
              ((byteAt body 1).toNat = 0 ∨ 6 < (byteAt body 1).toNat ∨
                ∃ n : SlotNo, (byteAt body 1).toNat = n.val ∧ (s.slot n).state ≠ .active)) →
          handOver frame false s = met .unmatched))) ∧
  (
    ∀ (s : State) (h : OrderInHand) (n : SlotNo) (job : TagJob), h.handling = .comparing n job → job.isLast = true →
      s.coreServes .order = true →
      let matching := truncateTag s.coreResult = h.carriedTag ∧ (s.slot n).state = .active
      (s.standing h = some .badTag ↔ ¬matching) ∧
      (s.standing h = some .stale ↔ matching ∧ h.number.toNat ≤ s.store.lastOrder.toNat) ∧
      (s.standing h = some .accepted ↔ matching ∧ s.store.lastOrder.toNat < h.number.toNat)) ∧
  (
    ∀ (s : State) (h : OrderInHand),
      (h.handling = .untagged → s.standing h = some (if h.broadcast then .broadcast else .untagged)) ∧
      (h.handling = .screened → s.standing h = some .untagged) ∧ (h.handling = .unmatched → s.standing h = some .badTag) ∧
      ∀ key, h.handling = .checking key → (s.standing h = some .untagged ↔ s.coreServes .load = true))

/-- An order that fails authentication or whose number is stale changes nothing but its flag, and its answer carries a tag of 00H
bytes and is in the answer slot at once: the number, the gate and the idle timer stay (R138, R139, R151). -/
def Obligations.UnacceptedOrderChangesNothing : Prop :=
  ∀ (i : Instr) (rule : OrderRule) (h : OrderInHand) (s : State), orderRule i = some rule →
    let u := s.endDecisionStep h
    let answered : OrderResult → UpFlags → State → Prop := fun r flags t =>
      let v := { u with link := { u.link with upFlags := flags } }
      SettlesTo
        { v with
          order := { v.order with
            hand := some { h with handling := .answered }
            answer := some (answerFrame (v.answerMessage h r []) 0) } } t
    (Decides rule h .badTag s →
      ∃ t, exec i s = .next t ∧ answered .badTag { s.link.upFlags with tag := true } t) ∧
    (Decides rule h .stale s →
      ∃ t, exec i s = .next t ∧ answered .staleNumber { s.link.upFlags with number := true } t)

/-- The checks of R140 in order for an accepted order: unknown code NO SUCH, wrong length RANGE, custody state DORMANT or NOT
PERMITTED, gate GATE. The refusal changes nothing but what acceptance does: the number recorded, the idle timer started, the gate
emptied (R139, R141, R148, R152, R187). An order of a code outside the catalogue, at its decision, is refused NO SUCH (R140). An order
that a zeroisation overtook is checked so at its decision, without a gate, and so is a broadcast; a refused broadcast does not start
the idle timer (R140, R141, R150, R187). The gate (R146, R147): a single-control order needs the latest grant to name its number, a
dual-control order two grants of different custodians that both name it; other orders need none. The model's choice: the decision is
an event of its own (log 14). -/
def Obligations.AcceptedOrderIsChecked : Prop :=
  (
    ∀ (i : Instr) (rule : OrderRule) (h : OrderInHand) (s : State), orderRule i = some rule → Decides rule h .accepted s →
      let refusedWith : OrderResult → Prop := fun r =>
        ∃ t, exec i s = .next t ∧ AnswersWith h r [] (acceptedState h s) t
      (rule.known = false → refusedWith .noSuch) ∧
      (rule.known = true → rule.fits h.params = false → refusedWith .range) ∧
      (rule.known = true → rule.fits h.params = true → rule.passed s.store.custody = false →
        refusedWith (if s.store.custody = .dormant then .dormant else .notPermitted)) ∧
      (rule.screen h s = .ok () → s.order.gate.satisfies h.number rule.cls = false → refusedWith .gate)) ∧
  (
    ∀ (s : State) (h : OrderInHand),
      (Decides unknownRule h .accepted s →
        ∃ t, exec .unknownOrderCode s = .next t ∧ AnswersWith h .noSuch [] (acceptedState h s) t) ∧
      (Decides unknownRule h .untagged s →
        ∃ t, exec .unknownOrderCode s = .next t ∧ AnswersUntagged h .noSuch [] (s.endDecisionStep h) t)) ∧
  (
    ∀ (i : Instr) (rule : OrderRule) (h : OrderInHand) (s : State), orderRule i = some rule → h.handling = .untagged →
      Decides rule h .untagged s ∨ Decides rule h .broadcast s →
      let refusedWith : OrderResult → Prop := fun r => ∃ t, exec i s = .next t ∧ AnswersUntagged h r [] s t
      (rule.known = false → refusedWith .noSuch) ∧
      (rule.known = true → rule.fits h.params = false → refusedWith .range) ∧
      (rule.known = true → rule.fits h.params = true → rule.passed s.store.custody = false →
        refusedWith (if s.store.custody = .dormant then .dormant else .notPermitted))) ∧
  (
    ∀ (g : Gate) (number : Word),
      g.satisfies number .plain = true ∧ g.satisfies number .grant = true ∧
      (g.satisfies number .single = true ↔ ∃ rest x, g.grants = rest ++ [x] ∧ x.target = number) ∧
      (g.satisfies number .dual = true ↔
        ∃ a b, g.grants = [a, b] ∧ a.target = number ∧ b.target = number ∧ a.custodian ≠ b.custodian))

/-- The store's screen (R5): the orders it screens are refused SETTLING while the settling inhibit runs, then BUSY, then, for the
three loading orders, SUSPENDED; LOAD CLEAR, COMMISSION and ACK TAMPER are screened when they are handled untagged too (R9, R10, R29).
The refusal changes nothing in the store. -/
def Obligations.StoreScreensOrders : Prop :=
  ∀ (i : Instr) (rule : OrderRule) (h : OrderInHand) (s : State), orderRule i = some rule →
    let refusedWith : OrderResult → Prop := fun r => ∃ t, exec i s = .next t ∧ AnswersWith h r [] (acceptedState h s) t
    (i ∈ [.beginKey, .loadComponent, .loadWrappedKey, .eraseSlot, .retireSlot, .lockSlot, .unlockSlot, .setCeiling, .wake,
        .ackTamper true, .ackTamper false] →
      Accepting rule h s →
      (s.isSettling = true → refusedWith .settling) ∧ (s.isSettling = false → s.busy = true → refusedWith .busy)) ∧
    (i ∈ [.beginKey, .loadComponent, .loadWrappedKey] → Accepting rule h s → s.isSettling = false → s.busy = false →
      s.suspended = true → refusedWith .suspended) ∧
    (i ∈ [.loadClear true, .commission true] → Handles rule h .untagged s →
      (s.isSettling = true → ∃ t, exec i s = .next t ∧ AnswersUntagged h .settling [] (s.endDecisionStep h) t) ∧
      (s.isSettling = false → s.busy = true →
        ∃ t, exec i s = .next t ∧ AnswersUntagged h .busy [] (s.endDecisionStep h) t)) ∧
    (i ∈ [.ackTamper true, .ackTamper false] → Handles rule h .untagged s → s.store.custody = .zeroised →
      (s.isSettling = true → ∃ t, exec i s = .next t ∧ AnswersUntagged h .settling [] (s.endDecisionStep h) t) ∧
      (s.isSettling = false → s.busy = true →
        ∃ t, exec i s = .next t ∧ AnswersUntagged h .busy [] (s.endDecisionStep h) t))

/-! ### The system orders -/

/-- STATUS reports the lost counter, the masks, the clocks and the custody state, and clears the lost counter if its flag is set; it
is taken as an accepted order, untagged in FACTORY and ZEROISED, and as a broadcast, which starts the idle timer unless it is refused
RANGE for another flag byte (R141, R150, R175, R177, R187, R189). The sixteen conditions of the status summary, when each holds, and
their places, the first condition in the highest bit (R8, R76, R120, R133, R168, R176, R190). The alarm output is asserted while main
power is up and a condition that is not masked holds (R179). The model's choice: the notices still being built are counted (log 39),
and 01H is the alarm output asserted (log 40). -/
def Obligations.StatusReports : Prop :=
  (
    ∀ (s : State) (h : OrderInHand) (clear : Bool), byteAt h.params 0 = flagByte clear →
    let cleared : State → State := fun u =>
      if clear then { u with report := { u.report with lost := { value := 0, limit := false } } } else u
    let values : State → Bytes := fun u =>
      be16 u.report.lost.value ++ [flagByte u.report.lost.limit, byteOf u.report.notices.length] ++
        be16 u.report.noticeMask.toNat ++ be16 u.report.alarmMask.toNat ++ [flagByte u.alarmOutput] ++
        be32 u.time.millis.toNat ++ be32 u.time.seconds.value ++
        [flagByte u.time.seconds.limit, u.store.custody.code, byteOf u.link.address, flagByte u.link.chainEnd]
    (Accepting statusRule h s →
      ∃ t, exec .status s = .next t ∧ AnswersWith h .done (values (acceptedState h s)) (cleared (acceptedState h s)) t) ∧
    (Handles statusRule h .untagged s → ∃ t, exec .status s = .next t ∧ AnswersUntagged h .done (values s) (cleared s) t) ∧
    (Handles statusRule h .broadcast s →
      ∃ t, exec .status s = .next t ∧ AnswersUntagged h .done (values s) (cleared s).startIdle t)) ∧
  (
    ∀ (s : State) (h : OrderInHand), 2 ≤ (byteAt h.params 0).toNat →
      (Accepting statusRule h s → ∃ t, exec .status s = .next t ∧ AnswersWith h .range [] (acceptedState h s) t) ∧
      (Handles statusRule h .untagged s ∨ Handles statusRule h .broadcast s →
        ∃ t, exec .status s = .next t ∧ AnswersUntagged h .range [] s t)) ∧
  (
    ∀ s : State,
      let places : List Condition :=
        [.lineFault, .lineLapse, .runHeld, .overspoil, .keyDamaged, .keySpent, .storeSuspended, .dormant] ++
          [.tamper, .cabinetOpen, .settling, .storeBusy, .noticesLost, .linkError, .countLimit, .commissioning]
      (∀ i c, places[i]? = some c → s.summary.getLsbD (15 - i) = s.holds c) ∧
      (s.alarmOutput = true ↔
        s.power.supply = .main ∧ ∃ i c, places[i]? = some c ∧ s.holds c = true ∧ s.report.alarmMask.getLsbD (15 - i) = false) ∧
      (s.holds .lineFault = true ↔ ∃ l, s.reported l = .faulted) ∧
      (s.holds .lineLapse = true ↔ ∃ l, (s.line l).consecutive ≠ 0) ∧
      (s.holds .runHeld = true ↔ ∃ r ∈ s.runs.table, r.state = .held) ∧
      (s.holds .overspoil = true ↔ ∃ r ∈ s.runs.table, r.state ≠ .closed ∧ r.holds.overspoil = true) ∧
      (s.holds .keyDamaged = true ↔ ∃ n, (s.slot n).state = .damaged) ∧
      (s.holds .keySpent = true ↔
        ∃ n, (s.slot n).state = .active ∧ (s.slot n).ceiling ≠ 0 ∧ (s.slot n).uses.value = (s.slot n).ceiling) ∧
      (s.holds .storeSuspended = true ↔ ∃ i : SensorNo, s.store.suspend[i.val] = true) ∧
      (s.holds .dormant = true ↔ s.store.custody = .dormant) ∧
      (s.holds .tamper = true ↔
        s.tamper.record ≠ [] ∨ s.tamper.overflow.value ≠ 0 ∨
          ∃ i, (s.sensor i).alarmMasked = false ∧ (s.sensor i).status = .qualifying) ∧
      (s.holds .cabinetOpen = true ↔ s.tamper.window ≠ none ∨ ((s.sensor 0).enable = true ∧ (s.sensor 0).active = true)) ∧
      (s.holds .settling = true ↔ s.power.settling ≠ none) ∧
      (s.holds .storeBusy = true ↔ s.store.scrub ≠ none ∨ s.store.verify ≠ none ∨ s.store.verifyWaits = true) ∧
      (s.holds .noticesLost = true ↔ s.report.lost.value ≠ 0) ∧
      (s.holds .linkError = true ↔
        s.link.upFlags ≠ ⟨false, false, false, false, false, false⟩ ∨ s.link.onFlags ≠ ⟨false, false, false⟩ ∨
          ∃ l, (s.line l).flags ≠ ⟨false, false, false⟩) ∧
      (s.holds .countLimit = true ↔
        (∃ n, (s.slot n).uses.limit = true) ∨ (∃ r ∈ s.runs.table, r.duplicates.limit = true ∨ r.late.limit = true) ∨
          (∃ l, (s.line l).lapses.limit = true ∨ (s.line l).strays.limit = true ∨ (s.line l).rejects.limit = true ∨
            (s.line l).late.limit = true) ∨
          s.tamper.overflow.limit = true ∨ s.tamper.events.limit = true ∨ s.report.lost.limit = true ∨
          s.time.seconds.limit = true) ∧
      (s.holds .commissioning = true ↔ s.store.custody = .factory))

/-- GRANT appends a grant for a number above its own to the gate, dropping the older of two, and starts the gate's 60-second lapse
deadline; a target not above its own number is RANGE, a custodian whose grant stands in the gate SAME CUSTODIAN (R145, R148). -/
def Obligations.GrantEntersGate : Prop :=
  ∀ (s : State) (h : OrderInHand), Accepting grantRule h s →
    let target := wordAt h.params 1
    let custodian := (byteAt h.params 0).toNat
    let u := acceptedState h s
    (target.toNat ≤ h.number.toNat → ∃ t, exec .grant s = .next t ∧ AnswersWith h .range [] u t) ∧
    (h.number.toNat < target.toNat → (∃ g ∈ s.order.gate.grants, g.custodian = custodian) →
      ∃ t, exec .grant s = .next t ∧ AnswersWith h .sameCustodian [] u t) ∧
    (h.number.toNat < target.toNat → (∀ g ∈ s.order.gate.grants, g.custodian ≠ custodian) → s.order.gate.grants.length ≤ 2 →
      let kept := if s.order.gate.grants.length = 2 then s.order.gate.grants.tail else s.order.gate.grants
      let grants := kept ++ [{ custodian := custodian, target := target, accepted := s.time.millis }]
      ∃ t, exec .grant s = .next t ∧
        SettlesTo
          (buildAnswer h .done (byteOf grants.length :: grants.flatMap fun g => byteOf g.custodian :: be32 g.target.toNat) false
            { u with order := { u.order with gate := { grants := grants, deadline := some (s.time.millis + 60000) } } }) t)

/-- SET TIME, SET NOTICE MASK, SET ALARM MASK and SET IDLE LIMIT write what they name and report it; a notice mask whose bits for
TAMPER and POWER are not 1, or whose bits above them are not 0, is RANGE (R171, R173, R178, R187). To start the idle timer is to set
it RUNNING with the limit's minutes and a minute deadline 60,000 ms on, unless the limit is 0 or the unit not OPERATIONAL; an order
accepted has its number recorded and the timer started (R139, R187). The model's choice: SET TIME reports the clock without its limit
flag (log 36). -/
def Obligations.SettingOrdersWrite : Prop :=
  (
    ∀ s : State,
      (s.power.idleLimit ≠ 0 → s.store.custody = .operational →
        s.startIdle =
          { s with
            power := { s.power with idle := some { minutes := s.power.idleLimit, deadline := s.time.millis + 60000 } } }) ∧
      (s.power.idleLimit = 0 ∨ s.store.custody ≠ .operational → s.startIdle = s) ∧
      ∀ h : OrderInHand,
        acceptedState h s =
          ({ s with
            core := { s.core with work := .idle }
            store := { s.store with lastOrder := wordOfBytes (sliceBytes h.header 4 4) } } : State).startIdle) ∧
  ∀ (s : State) (h : OrderInHand),
    let u := acceptedState h s
    let v := numAt h.params 0 2
    (Accepting setTimeRule h s →
      ∃ t, exec .setTime s = .next t ∧
        AnswersWith h .done (be32 s.time.seconds.value ++ be32 (numAt h.params 0 4))
          { u with time := { millis := s.time.millis, seconds := { value := numAt h.params 0 4, limit := false }, ticks := 0 } } t) ∧
    (Accepting setNoticeMaskRule h s →
      (v.testBit 7 = true ∧ v.testBit 8 = true ∧ v < 512 →
        ∃ t, exec .setNoticeMask s = .next t ∧
          AnswersWith h .done (be16 v) { u with report := { u.report with noticeMask := BitVec.ofNat 16 v } } t) ∧
      (¬(v.testBit 7 = true ∧ v.testBit 8 = true ∧ v < 512) →
        ∃ t, exec .setNoticeMask s = .next t ∧ AnswersWith h .range [] u t)) ∧
    (Accepting setAlarmMaskRule h s →
      ∃ t, exec .setAlarmMask s = .next t ∧
        AnswersWith h .done (be16 v) { u with report := { u.report with alarmMask := BitVec.ofNat 16 v } } t) ∧
    (Accepting setIdleLimitRule h s →
      let minutes := (byteAt h.params 0).toNat
      ∃ t, exec .setIdleLimit s = .next t ∧
        AnswersWith h .done [byteAt h.params 0]
          { u with
            power := { u.power with
              idleLimit := minutes
              idle := if minutes = 0 then none else some { minutes := minutes, deadline := s.time.millis + 60000 } } } t)

/-- The three orders of FACTORY that need the commissioning contact (R9, R10, R142): without it NOT PERMITTED; LOAD CLEAR fills a slot
of 0 to 6 with a key whose check value agrees, and refuses slots 7 to 63 RANGE (R9) and a higher number NO SUCH (R2); SET UNIT writes
address and chain end; COMMISSION, with slot 0 and two custodian slots ACTIVE, makes the unit OPERATIONAL and starts the idle timer.
The model's choice: the decision is an event of its own (log 14), after the check value of LOAD CLEAR (log 19); LOAD CLEAR fills a
slot whatever its state, a DAMAGED one too (log 31); the take that COMMISSION makes possible comes before its answer (log 15). -/
def Obligations.CommissioningOrders : Prop :=
  ∀ (s : State) (h : OrderInHand),
    let u := s.endDecisionStep h
    let key := blockOfBytes (sliceBytes h.params 1 16)
    (∀ (i : Instr) (rule : OrderRule), i ∈ [.loadClear false, .setUnit false, .commission false] → orderRule i = some rule →
      Handles rule h .untagged s → ∃ t, exec i s = .next t ∧ AnswersUntagged h .notPermitted [] u t) ∧
    (∀ n : SlotNo, Handles (loadClearRule true) h .untagged s → s.isSettling = false → s.busy = false →
      (byteAt h.params 0).toNat = n.val → n.val ≤ 6 →
      (checkValue key = checkOfBytes (sliceBytes h.params 17 3) →
        ∃ t, exec (.loadClear true) s = .next t ∧
          AnswersUntagged h .done []
            (u.setSlot n
              { state := .active, cls := some (if n.val = 0 then .mgmt else .custodian), key := some key,
                check := some (checkValue key), required := none, components := none, accumulator := none, expected := none,
                deadline := none, label := none, uses := .zero, ceiling := 0, lock := (s.slot n).lock }) t) ∧
      (checkValue key ≠ checkOfBytes (sliceBytes h.params 17 3) →
        ∃ t, exec (.loadClear true) s = .next t ∧ AnswersUntagged h .checkMismatch [] u t)) ∧
    (Handles (loadClearRule true) h .untagged s → s.isSettling = false → s.busy = false →
      (7 ≤ (byteAt h.params 0).toNat → (byteAt h.params 0).toNat ≤ 63 →
        ∃ t, exec (.loadClear true) s = .next t ∧ AnswersUntagged h .range [] u t) ∧
      (64 ≤ (byteAt h.params 0).toNat →
        ∃ t, exec (.loadClear true) s = .next t ∧ AnswersUntagged h .noSuch [] u t)) ∧
    (∀ chainEnd : Bool, Handles (setUnitRule true) h .untagged s → byteAt h.params 1 = flagByte chainEnd →
      ((byteAt h.params 0).toNat ≤ 30 →
        ∃ t, exec (.setUnit true) s = .next t ∧
          AnswersUntagged h .done []
            { u with link := { u.link with address := (byteAt h.params 0).toNat, chainEnd := chainEnd } } t) ∧
      (30 < (byteAt h.params 0).toNat → ∃ t, exec (.setUnit true) s = .next t ∧ AnswersUntagged h .range [] u t)) ∧
    (Handles (commissionRule true) h .untagged s → s.isSettling = false → s.busy = false →
      ((s.slot 0).state = .active → 2 ≤ s.activeCustodians →
        ∃ t, exec (.commission true) s = .next t ∧
          AnswersUntagged h .done []
            (engineTake
              { u with
                store := { u.store with custody := .operational }
                power := { u.power with
                  idle := if s.power.idleLimit = 0 then s.power.idle
                    else some { minutes := s.power.idleLimit, deadline := s.time.millis + 60000 } } }) t) ∧
      ((s.slot 0).state ≠ .active ∨ s.activeCustodians < 2 →
        ∃ t, exec (.commission true) s = .next t ∧ AnswersUntagged h .notPermitted [] u t))

/-! ### The key orders -/

/-- BEGIN KEY makes an EMPTY, unlocked general slot ASSEMBLING with a 10-minute deadline; its checks in order (R2, R11). -/
def Obligations.BeginKeyAssembles : Prop :=
  ∀ (s : State) (h : OrderInHand), Accepting beginKeyRule h s → s.isSettling = false → s.busy = false → s.suspended = false →
    let u := acceptedState h s
    let refusedWith : OrderResult → Prop := fun r => ∃ t, exec .beginKey s = .next t ∧ AnswersWith h r [] u t
    (64 ≤ (byteAt h.params 0).toNat → refusedWith .noSuch) ∧
    ((byteAt h.params 0).toNat < 7 → refusedWith .range) ∧
    (7 ≤ (byteAt h.params 0).toNat → (byteAt h.params 0).toNat < 64 → 6 ≤ (byteAt h.params 1).toNat → refusedWith .range) ∧
    ∀ (n : SlotNo) (c : KeyClass), (byteAt h.params 0).toNat = n.val → 7 ≤ n.val → byteAt h.params 1 = c.code →
      (c = .mgmt ∨ c = .custodian → refusedWith .range) ∧
      (c ≠ .mgmt → c ≠ .custodian →
        ((byteAt h.params 2).toNat ≠ 2 ∧ (byteAt h.params 2).toNat ≠ 3 → refusedWith .range) ∧
        ((byteAt h.params 2).toNat = 2 ∨ (byteAt h.params 2).toNat = 3 →
          ((s.slot n).lock = true → refusedWith .locked) ∧
          ((s.slot n).lock = false → (s.slot n).state ≠ .empty → refusedWith .exists) ∧
          ((s.slot n).lock = false → (s.slot n).state = .empty →
            ∃ t, exec .beginKey s = .next t ∧
              AnswersWith h .done []
                (u.setSlot n
                  { state := .assembling, cls := some c, key := none, check := none,
                    required := some (byteAt h.params 2).toNat, components := some [], accumulator := some 0,
                    expected := some (checkOfBytes (sliceBytes h.params 3 3)), deadline := some (s.time.millis + 600000),
                    label := if c = .prep ∨ c = .master then some (wordAt h.params 6) else none, uses := .zero,
                    ceiling := numAt h.params 10 4, lock := false }) t)))

/-- LOAD COMPONENT and LOAD WRAPPED KEY: their checks in order, each with its refusal (R12, R15); at its ceiling an IMPORT slot's use
is refused NOT PERMITTED with a KEY notice SPENT. One that passes answers nothing yet: the gate is emptied and the order waits for the
unwrap step of the wrapped value under the unwrapping slot's key, which is in the Core or waits in its queue; the use of an IMPORT
slot is counted when the step is in the Core, and not while it waits (R12, R15, R42). That no step of a load is left from before is
CoreStaysTidy's. The model's choice: the key is captured when the step is presented (log 23), and the bytes of SPENT (log 36). -/
def Obligations.LoadsPresentTheirUnwrap : Prop :=
  (
    ∀ (s : State) (h : OrderInHand), Accepting loadComponentRule h s → s.isSettling = false → s.busy = false →
      s.suspended = false →
      let a := acceptedState h s
      let b := (byteAt h.params 0).toNat
      let c := (byteAt h.params 1).toNat
      let custodian := s.order.gate.custodian
      let refusedWith : OrderResult → Prop := fun r => ∃ t, exec .loadComponent s = .next t ∧ AnswersWith h r [] a t
      (64 ≤ b → refusedWith .noSuch) ∧ (b < 7 → refusedWith .range) ∧
      ∀ n : SlotNo, b = n.val → 7 ≤ n.val →
        ((s.slot n).state ≠ .assembling → refusedWith .noSuch) ∧
        ((s.slot n).state = .assembling →
          (64 ≤ c → refusedWith .noSuch) ∧
          ∀ m : SlotNo, c = m.val →
            let fitting :=
              ((s.slot n).cls = some .importing ∧ m.val = custodian) ∨
                ((s.slot n).cls ≠ some .importing ∧ 7 ≤ m.val ∧ (s.slot m).cls = some .importing)
            let spent := 7 ≤ m.val ∧ (s.slot m).ceiling ≠ 0 ∧ (s.slot m).ceiling ≤ (s.slot m).uses.value
            let given := (s.slot n).components.getD []
            (¬fitting → refusedWith .range) ∧
            (fitting → (s.slot m).state ≠ .active → refusedWith .noSuch) ∧
            (fitting → (s.slot m).state = .active → spent →
              ∃ t, exec .loadComponent s = .next t ∧
                AnswersWith h .notPermitted []
                  (offer .key 0x04 ([byteOf m.val] ++ be32 (s.slot m).uses.value ++ be32 (s.slot m).ceiling) a) t) ∧
            (fitting → (s.slot m).state = .active → ¬spent → custodian ∈ given → refusedWith .sameCustodian) ∧
            (fitting → (s.slot m).state = .active → ¬spent → custodian ∉ given → CoreTidy s →
              let wrapped := blockOfBytes (sliceBytes h.params 2 16)
              let key := (s.slot m).key.getD 0
              let unwrap : KsStep :=
                { user := .load, step := { fn := .dec, key := key, block := wrapped }, counts := if 7 ≤ m.val then some m else none }
              let load : Load :=
                { kind := .component n custodian (decide ((s.slot n).required.getD 0 ≤ given.length + 1)),
                  stage := .unwrap m key wrapped, zeroised := false }
              let u := { a with
                order := { a.order with
                  gate := { grants := [], deadline := none }, hand := some { h with handling := .loading load } } }
              ∃ t, exec .loadComponent s = .next t ∧ (t.core.work = .keyStore unwrap false ∨ unwrap ∈ t.core.queue) ∧
                (t.core.work = .keyStore unwrap false → 7 ≤ m.val → SettlesTo (u.countUse m) t) ∧
                (t.core.work ≠ .keyStore unwrap false ∨ m.val < 7 → SettlesTo u t)))) ∧
  (
    ∀ (s : State) (h : OrderInHand), Accepting loadWrappedKeyRule h s → s.isSettling = false → s.busy = false →
      s.suspended = false →
      let a := acceptedState h s
      let b := (byteAt h.params 0).toNat
      let d := (byteAt h.params 2).toNat
      let refusedWith : OrderResult → Prop := fun r => ∃ t, exec .loadWrappedKey s = .next t ∧ AnswersWith h r [] a t
      (64 ≤ b → refusedWith .noSuch) ∧ (b < 7 → refusedWith .range) ∧
      ∀ n : SlotNo, b = n.val → 7 ≤ n.val →
        (byteAt h.params 1 ≠ 0x02 → byteAt h.params 1 ≠ 0x03 → byteAt h.params 1 ≠ 0x05 → refusedWith .range) ∧
        ∀ c : KeyClass, byteAt h.params 1 = c.code → c = .importing ∨ c = .prep ∨ c = .line →
          ((s.slot n).lock = true → refusedWith .locked) ∧
          ((s.slot n).lock = false → (s.slot n).state ≠ .empty → refusedWith .exists) ∧
          ((s.slot n).lock = false → (s.slot n).state = .empty →
            (64 ≤ d → refusedWith .noSuch) ∧
            ∀ m : SlotNo, d = m.val →
              let fitting := 7 ≤ m.val ∧ (s.slot m).cls = some .importing
              let spent := (s.slot m).ceiling ≠ 0 ∧ (s.slot m).ceiling ≤ (s.slot m).uses.value
              (¬fitting → refusedWith .range) ∧
              (fitting → (s.slot m).state ≠ .active → refusedWith .noSuch) ∧
              (fitting → (s.slot m).state = .active → spent →
                ∃ t, exec .loadWrappedKey s = .next t ∧
                  AnswersWith h .notPermitted []
                    (offer .key 0x04 ([byteOf m.val] ++ be32 (s.slot m).uses.value ++ be32 (s.slot m).ceiling) a) t) ∧
              (fitting → (s.slot m).state = .active → ¬spent → CoreTidy s →
                let wrapped := blockOfBytes (sliceBytes h.params 3 16)
                let key := (s.slot m).key.getD 0
                let unwrap : KsStep :=
                  { user := .load, step := { fn := .dec, key := key, block := wrapped }, counts := some m }
                let load : Load :=
                  { kind := .whole n c (checkOfBytes (sliceBytes h.params 19 3)) (numAt h.params 22 4) (wordAt h.params 26),
                    stage := .unwrap m key wrapped, zeroised := false }
                let u := { a with
                  order := { a.order with
                    gate := { grants := [], deadline := none }, hand := some { h with handling := .loading load } } }
                ∃ t, exec .loadWrappedKey s = .next t ∧ (t.core.work = .keyStore unwrap false ∨ unwrap ∈ t.core.queue) ∧
                  (t.core.work = .keyStore unwrap false → SettlesTo (u.countUse m) t) ∧
                  (t.core.work ≠ .keyStore unwrap false → SettlesTo u t))))

/-- The end of a load (R12, R13, R15, R42): a component joins its assembly; the last component of an assembly, and a key loaded whole,
make the slot ACTIVE when the check value agrees and CHECK MISMATCH when it does not (the assembling slot then becomes EMPTY); a
zeroisation that came between leaves NO SUCH and no effect, at the last step. The deadline of the assembling slot, and the emptying of
assemblies on entry into DORMANT, reach the slot at that end, in the state the order leaves it: a component that does not complete its
assembly is in, the slot lapses with its KEY notice, and the answer is DONE. The model's choice: the bytes of the KEY notices (log 8,
log 33), their moment (log 13), the take before the answer (log 15), the lapse before the answer (log 29). The model's choice, too:
the LINE notices of a take come after those of the effect before it (log 41). -/
def Obligations.LoadEnds : Prop :=
  (
    ∀ (s : State) (h : OrderInHand) (l : Load) (n : SlotNo), s.order.hand = some h → h.handling = .loading l →
    s.coreServes .load = true → s.quietQueue → s.store.custody ≠ .dormant →
    (∀ d, (s.slot n).deadline = some d → deadlineReached s.time.millis d = false) →
    let v := s.coreResult
    let u := s.endStep
    let check := checkOfBlock v
    let ends : OrderResult → State → Prop := fun r x =>
      ∃ t, exec .loadUnwrapEnd s = .next t ∧ AnswersUntagged h r [] (engineTake x) t
    let activates : Slot → Prop := fun k =>
      let x := u.setSlot n k
      ends .done
        (lineNotices u
          (offer .key 0x01
            ([byteOf n.val, (k.cls.map KeyClass.code).getD 0] ++ be24 check.toNat ++
              optionalField 4 (k.label.map fun w => be32 w.toNat)) x))
    (l.zeroised = true → (∀ m c last, l.kind = .component m c last → (s.slot m).state ≠ .assembling) →
      (∃ clear, l.stage = .check clear) ∨
        (∃ m c slot key wrapped, l.kind = .component m c false ∧ l.stage = .unwrap slot key wrapped) →
      ends .noSuch u) ∧
    (∀ custodian slot key wrapped, l.zeroised = false → l.kind = .component n custodian false → l.stage = .unwrap slot key wrapped →
      ends .done
        (u.setSlot n
          { s.slot n with
            components := some ((s.slot n).components.getD [] ++ [custodian])
            accumulator := some ((s.slot n).accumulator.getD 0 ^^^ v) })) ∧
    (∀ custodian last clear, l.zeroised = false → l.kind = .component n custodian last → l.stage = .check clear →
      ((s.slot n).expected = some check →
        activates
          { s.slot n with
            state := .active, key := some clear, check := some check, components := none, accumulator := none, expected := none,
            deadline := none, uses := .zero }) ∧
      ((s.slot n).expected ≠ some check → ends .checkMismatch (u.setSlot n (Slot.blank (s.slot n).lock)))) ∧
    (∀ c stated ceiling label clear, l.zeroised = false → l.kind = .whole n c stated ceiling label → l.stage = .check clear →
      (check = stated →
        activates
          { state := .active, cls := some c, key := some clear, check := some check, required := none, components := none,
            accumulator := none, expected := none, deadline := none,
            label := if c = .prep ∨ c = .master then some label else none, uses := .zero, ceiling := ceiling,
            lock := (s.slot n).lock }) ∧
      (check ≠ stated → ends .checkMismatch u))) ∧
  (
    ∀ (s : State) (h : OrderInHand) (n : SlotNo) (custodian : Nat) (last : Bool) (stage : LoadStage), s.order.hand = some h →
      h.handling = .loading { kind := .component n custodian last, stage := stage, zeroised := false } →
      s.coreServes .load = true → s.quietQueue → (s.slot n).state = .assembling →
      s.store.custody = .dormant ∨ (∃ d, (s.slot n).deadline = some d ∧ (s.time.millis - d).toNat < 2147483648) →
      let u := s.endStep
      let check := checkOfBlock s.coreResult
      let ends : OrderResult → State → Prop := fun r x =>
        ∃ t, exec .loadUnwrapEnd s = .next t ∧ AnswersUntagged h r [] (engineTake x) t
      let emptied := u.setSlot n (Slot.blank (s.slot n).lock)
      (∀ slot key wrapped, stage = .unwrap slot key wrapped → last = false →
        ends .done (offer .key 0x02 [byteOf n.val, byteOf (((s.slot n).components.getD []).length + 1)] emptied)) ∧
      (∀ clear, stage = .check clear →
        ((s.slot n).expected = some check →
          let k : Slot :=
            { s.slot n with
              state := .active, key := some clear, check := some check, components := none, accumulator := none, expected := none,
              deadline := none, uses := .zero }
          ends .done
            (lineNotices u
              (offer .key 0x01
                ([byteOf n.val, (k.cls.map KeyClass.code).getD 0] ++ be24 check.toNat ++
                  optionalField 4 (k.label.map fun w => be32 w.toNat)) (u.setSlot n k)))) ∧
        ((s.slot n).expected ≠ some check → ends .checkMismatch emptied)))

/-- LOCK SLOT, UNLOCK SLOT, RETIRE SLOT, ERASE SLOT and SET CEILING on a general slot, past the screen (R16, R17, R18, R22, R102).
WAKE starts a slot verify in DORMANT and is NOT PERMITTED in OPERATIONAL (R24, R26). The model's choice: WAKE is screened first (log
20), the take before the answer (log 15). The model's choice, too: the LINE notices of a take come after those of the effect before it
(log 41). -/
def Obligations.SlotOrdersChangeTheirSlot : Prop :=
  (
    ∀ (s : State) (h : OrderInHand) (n : SlotNo), s.isSettling = false → s.busy = false → (byteAt h.params 0).toNat = n.val →
      7 ≤ n.val →
      let u := acceptedState h s
      let k := s.slot n
      let answers : Instr → OrderResult → Bytes → State → Prop := fun i r v x => ∃ t, exec i s = .next t ∧ AnswersWith h r v x t
      (Accepting lockSlotRule h s → answers .lockSlot .done [] (u.setSlot n { k with lock := true })) ∧
      (Accepting unlockSlotRule h s → answers .unlockSlot .done [] (u.setSlot n { k with lock := false })) ∧
      (Accepting retireSlotRule h s →
        (k.lock = true → answers .retireSlot .locked [] u) ∧
        (k.lock = false → k.state ≠ .active → answers .retireSlot .notPermitted [] u) ∧
        (k.lock = false → k.state = .active →
          answers .retireSlot .done [] (lineNotices u ((u.setSlot n { k with state := .retired }).reportUnusable n)))) ∧
      (Accepting eraseSlotRule h s →
        (k.lock = true → answers .eraseSlot .locked [] u) ∧
        (k.lock = false → k.state = .empty → answers .eraseSlot .noSuch [] u) ∧
        (k.lock = false → k.state ≠ .empty →
          ((∃ r ∈ s.runs.table, r.state ≠ .closed ∧ (r.master = n ∨ r.prep = some n)) ∨ (∃ l, (s.line l).keySlot = some n) →
            answers .eraseSlot .inUse [] u) ∧
          ((∀ r ∈ s.runs.table, r.state ≠ .closed → r.master ≠ n ∧ r.prep ≠ some n) → (∀ l, (s.line l).keySlot ≠ some n) →
            answers .eraseSlot .started [byteOf n.val]
              { u with store := { u.store with slots := u.store.slots.set n.val (Slot.blank false), scrub := some (.erase n) } }))) ∧
      (Accepting setCeilingRule h s →
        (k.state ≠ .active → answers .setCeiling .notPermitted [] u) ∧
        (k.state = .active → numAt h.params 1 4 ≠ 0 → numAt h.params 1 4 ≤ k.uses.value → answers .setCeiling .range [] u) ∧
        (k.state = .active → numAt h.params 1 4 = 0 ∨ k.uses.value < numAt h.params 1 4 →
          answers .setCeiling .done [] (engineTake (lineNotices u (u.setSlot n { k with ceiling := numAt h.params 1 4 })))))) ∧
  (
    ∀ (s : State) (h : OrderInHand), Accepting wakeRule h s → s.isSettling = false → s.busy = false →
      let u := acceptedState h s
      (s.store.custody = .operational → ∃ t, exec .wake s = .next t ∧ AnswersWith h .notPermitted [] u t) ∧
      (∀ n : SlotNo, s.store.custody = .dormant → ((s.slot n).state = .active ∨ (s.slot n).state = .retired) →
        (∀ m : SlotNo, m.val < n.val → (s.slot m).state ≠ .active ∧ (s.slot m).state ≠ .retired) →
        ∃ t, exec .wake s = .next t ∧
          AnswersWith h .started []
            { u with store := { u.store with verify := some { cause := .wake, slot := n, damaged := 0 } } } t))

/-- An accepted ZEROISE: every slot becomes EMPTY with its lock cleared, the order number, the suspensions, the gate, any verify and
the copies go, the idle timer stops, the scrub of all key storage starts, the unit is ZEROISED, and the answer STARTED has no key to
tag with (R27, R28); ORDER enters the tamper record, or the overflow count when that is full, and the event count (R163, R164). Before
the slots are emptied the TAMPER notice is offered; the runs that named a slot then emptied gain KEY (R46), the lines that became OFF
have their LINE notices (R102), and a record in the engine fails ABORTED, its waiting step dropped (R96), as RecordLeavesTheEngine
says; a verify's step goes with it (R33). Everything else stays: the staged records, the recipes, the settings of lines and groups,
the production switch, the sensors, the clocks, the links. The model's choice: the order of the effects (log 13), all of them before
the answer is built (log 15), no KEY on a CLOSING run, against R27's own words (log 21), and the notice's flag byte (log 35). -/
def Obligations.ZeroiseEmptiesTheStore : Prop :=
  ∀ (s : State) (h : OrderInHand), Accepting zeroiseRule h s →
    let u := acceptedState h s
    let room := decide (s.tamper.record.length < 8)
    let entry : TamperEntry :=
      { source := .order, seconds := s.time.seconds.value, millis := some (s.time.millis.setWidth 16), action := .zeroise,
        before := s.store.custody }
    let told :=
      offer .tamper 0x0F
        ([0x0F, 0x00] ++ be32 s.time.seconds.value ++ be16 (s.time.millis.toNat % 65536) ++
          [s.store.custody.code, if room then 0x01 else 0x00])
        { u with
          tamper := { s.tamper with
            record := if room then s.tamper.record ++ [entry] else s.tamper.record
            overflow := if room then s.tamper.overflow else bumpCounter 255 s.tamper.overflow
            events := bumpCounter 255 s.tamper.events } }
    let lost : SlotNo → Prop := fun n => 7 ≤ n.val ∧ (s.slot n).state ≠ .empty
    let hit : Run → Prop := fun r =>
      (lost r.master ∨ ∃ n, r.prep = some n ∧ lost n) ∧ (r.state = .defined ∨ r.state = .live ∨ r.state = .held)
    let aborts : State → State := fun x =>
      match s.engine with
      | none => x
      | some w => failRecord w .aborted { x with core := { x.core with engineWaits := none } }
    ∃ t, exec .zeroise s = .next t ∧
      t.store.slots = Vector.replicate 64 (Slot.blank false) ∧ t.store.custody = .zeroised ∧ t.store.lastOrder = 0 ∧
      t.suspended = false ∧ t.store.verify = none ∧ t.store.scrub = some .zeroise ∧
      t.engine = none ∧ t.order.gate.grants = [] ∧ t.order.gate.deadline = none ∧ t.power.idle = none ∧
      (∃ message, t.order.hand = some { h with handling := .answered } ∧ t.order.answer = some (answerFrame message 0) ∧
        sliceBytes message 8 2 = [h.code, 0x01]) ∧
      t.tamper.events.value = min (s.tamper.events.value + 1) (max s.tamper.events.value 255) ∧
      (s.tamper.record.length < 8 → t.tamper.record = s.tamper.record ++ [entry] ∧ t.tamper.overflow = s.tamper.overflow) ∧
      (8 ≤ s.tamper.record.length →
        t.tamper.record = s.tamper.record ∧ t.tamper.overflow = bumpCounter 255 s.tamper.overflow) ∧
      t.recipes = s.recipes ∧ t.runs.staging = s.runs.staging ∧ t.link = s.link ∧ t.time = s.time ∧
      t.tamper.sensors = s.tamper.sensors ∧ t.tamper.window = s.tamper.window ∧
      (∀ l, t.line l = { s.line l with occupied := (t.line l).occupied }) ∧ (∀ g, t.group g = s.group g) ∧
      t.dispatch.production = s.dispatch.production ∧
      ∃ (table : List Run) (v : State),
        List.Forall₂
          (fun r y =>
            (hit r →
              y = { r with holds := { r.holds with key := true }, state := if r.state = .live then .held else r.state }) ∧
            (¬hit r → y = r)) s.runs.table table ∧
        v = { told with
          store := { s.store with
            slots := Vector.replicate 64 (Slot.blank false), custody := .zeroised, lastOrder := 0,
            suspend := Vector.replicate 6 false, scrub := some .zeroise, verify := none, working := Vector.replicate 64 false }
          power := { s.power with idle := none }
          core := {
            work := .idle, engineWaits := s.core.engineWaits,
            queue := s.core.queue.filter fun k => decide (k.user ≠ .order) && decide (k.user ≠ .verify) }
          runs := { s.runs with table := table }
          order := { s.order with hand := some { h with handling := .untagged }, gate := { grants := [], deadline := none } } } ∧
        let w := aborts (lineNotices s v)
        SettlesTo
          { w with
            order := { w.order with
              hand := some { h with handling := .answered }
              answer := some (answerFrame (w.answerMessage h .started []) 0) } } t

/-! ### The run orders -/

/-- OPEN RUN that passes its checks appends a DEFINED run with the values used, CLAMPED when one was moved, and reports them; a known
run number is EXISTS and a full table NO SUCH (R47, R48, R49, R54, R55). The model's choice: the allowance in 4 bytes (log 7). -/
def Obligations.OpenRunCreatesRun : Prop :=
  ∀ (s : State) (h : OrderInHand), Accepting openRunRule h s →
    let u := acceptedState h s
    let p := numAt h.params 12 2
    let timeout := numAt h.params 14 4
    let postscaler := (byteAt h.params 18).toNat
    let q := numAt h.params 8 4
    (s.run (wordAt h.params 0) ≠ none → ∃ t, exec .openRun s = .next t ∧ AnswersWith h .exists [] u t) ∧
    (s.run (wordAt h.params 0) = none → 16 ≤ s.runs.table.length →
      ∃ t, exec .openRun s = .next t ∧ AnswersWith h .noSuch [] u t) ∧
    ∀ (rcp : RecipeNo) (actions : List Action) (master : SlotNo) (prep : Option SlotNo) (group : GroupNo),
      s.run (wordAt h.params 0) = none → s.runs.table.length < 16 → (byteAt h.params 21).toNat = rcp.val →
      s.recipe rcp = some actions → (byteAt h.params 19).toNat = master.val → (s.slot master).state ≠ .empty →
      (s.slot master).cls = some .master → byteAt h.params 20 = keySlotByte prep →
      (∀ n, prep = some n → (s.slot n).state ≠ .empty ∧ (s.slot n).cls = some .prep) →
      (prep ≠ none ↔ ∃ a ∈ actions, a.kind = .rewrap) → (byteAt h.params 22).toNat = group.val → 1 ≤ q → q ≤ 2000000 →
      let moved := 250 < p ∨ (timeout ≠ 0 ∧ (timeout < 1000 ∨ 600000 < timeout)) ∨ postscaler = 0
      let r : Run :=
        { number := wordAt h.params 0, state := .defined, holds := { order := false, overspoil := false, key := false },
          master := master, prep := prep, recipe := rcp, group := group, first := wordAt h.params 4, quantity := q,
          spoilRate := min p 250, allowance := spoilAllowance q (min p 250),
          timeout := if timeout = 0 then 30000 else max 1000 (min timeout 600000),
          postscaler := if postscaler = 0 then 256 else postscaler, progress := 0, low := 0,
          window := Vector.ofFn fun i => if i.val < q then some Position.fresh else none,
          issues := 0, reissues := 0, done := 0, spoiled := 0, lapsed := 0, voided := 0, duplicates := .zero, late := .zero,
          unissued := none }
      ∃ t, exec .openRun s = .next t ∧
        AnswersWith h (if moved then .clamped else .done)
          (be16 r.spoilRate ++ be32 r.timeout ++ [byteOf r.postscaler] ++ be32 r.allowance)
          { u with runs := { u.runs with table := u.runs.table ++ [r] } } t

/-- RELEASE RUN, HOLD RUN and ADD ALLOWANCE on a run the table knows (R50, R51, R53), run numbers being unique (R43). The model's
choice: the allowance in 4 bytes (log 7), the take before the answer (log 15). -/
def Obligations.RunControlOrders : Prop :=
  ∀ (s : State) (h : OrderInHand) (r : Run), (s.runs.table.map Run.number).Nodup → r ∈ s.runs.table →
    r.number = wordAt h.params 0 →
    let u := acceptedState h s
    let becomes : Run → State := fun x =>
      { u with runs := { u.runs with table := u.runs.table.map fun y => if y.number = r.number then x else y } }
    let answers : Instr → OrderResult → Bytes → State → Prop := fun i res v x => ∃ t, exec i s = .next t ∧ AnswersWith h res v x t
    (Accepting releaseRunRule h s →
      (r.state = .closing ∨ r.state = .closed → answers .releaseRun .notPermitted [] u) ∧
      (r.state = .defined →
        let holds := { r.holds with key := !s.keysUsable r }
        let x := { r with holds := holds, state := if holds = ⟨false, false, false⟩ then .live else .held }
        answers .releaseRun .done [x.state.code, x.holds.byte] (engineTake (becomes x))) ∧
      (r.state = .held →
        let holds := { r.holds with order := false, key := r.holds.key && !s.keysUsable r }
        let x := { r with holds := holds, state := if holds = ⟨false, false, false⟩ then .live else .held }
        answers .releaseRun .done [x.state.code, x.holds.byte] (engineTake (becomes x))) ∧
      (r.state = .live → answers .releaseRun .done [r.state.code, r.holds.byte] (engineTake u))) ∧
    (Accepting holdRunRule h s →
      (r.state = .closing ∨ r.state = .closed → answers .holdRun .notPermitted [] u) ∧
      (r.state = .defined ∨ r.state = .live ∨ r.state = .held →
        answers .holdRun .done [] (becomes { r with holds := { r.holds with order := true }, state := .held }))) ∧
    (Accepting addAllowanceRule h s →
      let extra := numAt h.params 4 2
      let allowed := min (r.allowance + extra) r.quantity
      (r.state = .closed → answers .addAllowance .notPermitted [] u) ∧
      (r.state ≠ .closed → extra = 0 → answers .addAllowance .range [] u) ∧
      (r.state ≠ .closed → extra ≠ 0 →
        let holds := if r.spoiled ≤ allowed then { r.holds with overspoil := false } else r.holds
        let x := { r with
          allowance := allowed
          holds := holds
          state := if r.state = .held ∧ holds = ⟨false, false, false⟩ ∧ r.spoiled ≤ allowed then .live else r.state }
        answers .addAllowance (if r.quantity < r.allowance + extra then .clamped else .done) (be32 allowed)
          (engineTake (becomes x))))

/-- CLOSE RUN makes a run CLOSING: its staged records leave the queue, their positions return to their prior states, a REFUSAL notice
RUN NOT LIVE is offered for each in queue order, and the closing test is made; a CLOSING run is DONE again; a CLOSED one NOT PERMITTED
(R61, R71). The closing test: a CLOSING run with nothing OUT and nothing STAGED has its SPOILED positions made VOID and counted, its
low mark advanced and its unissued count fixed, and is CLOSED with a RUN notice CLOSED (R72). WRITE OFF CARD makes an OPEN or SPOILED
position of the window VOID and the low mark moves on (R73). An advance of the low mark (LowMarkAdvances) that reaches Q makes the run
CLOSED with unissued 0 and a RUN notice COMPLETED (R70). DELETE RUN removes a CLOSED run (R74). The model's choice: the values of
REFUSAL and RUN notices (log 8, log 36), and the moment of the REFUSAL notices (log 13). -/
def Obligations.RunEndingOrders : Prop :=
  (
    ∀ (s : State) (h : OrderInHand) (r : Run), (s.runs.table.map Run.number).Nodup → r ∈ s.runs.table →
      r.number = wordAt h.params 0 → Accepting closeRunRule h s →
      let n := r.number
      let u := acceptedState h s
      let answers : State → Prop := fun x => ∃ t, exec .closeRun s = .next t ∧ AnswersWith h .done [] x t
      (r.state = .closed → ∃ t, exec .closeRun s = .next t ∧ AnswersWith h .notPermitted [] u t) ∧
      (r.state = .closing → answers u) ∧
      (r.state ≠ .closed → r.state ≠ .closing →
        let mine := s.runs.staging.filter fun x => decide (x.run = n)
        ∃ back : Run,
          back = { r with state := .closing, window := back.window } ∧
          (∀ o, back.position o =
            (r.position o).map fun p =>
              if (∃ x ∈ mine, (x.seq - r.first).toNat = o) ∧ p.state = .staged then
                { p with state := if p.prior = some .spoiled then .spoiled else .opened, prior := none }
              else p) ∧
          answers
            (closeTest n
              (mine.foldl (fun t x => offer .refusal 0x02 (be32 n.toNat ++ be32 x.seq.toNat ++ [0x02]) t)
                { u with
                  runs :=
                    { table := u.runs.table.map fun y => if y.number = n then back else y,
                      staging := u.runs.staging.filter fun x => decide (x.run ≠ n) } })))) ∧
  (
    ∀ (s : State) (r : Run), (s.runs.table.map Run.number).Nodup → r ∈ s.runs.table →
      let n := r.number
      let becomes : Run → State := fun y =>
        { s with runs := { s.runs with table := s.runs.table.map fun z => if z.number = n then y else z } }
      let count : Run → PosState → Nat := fun y st => y.window.toList.countP fun e => decide (e.map Position.state = some st)
      let tells : Byte → Run → State := fun code y =>
        offer .run code
          (be32 n.toNat ++ [code] ++
            (be32 y.issues ++ be32 y.reissues ++ be32 y.done ++ be32 y.spoiled ++ be32 y.lapsed ++ be32 y.voided) ++
            be16 y.duplicates.value ++ be16 y.late.value ++ be32 (y.unissued.getD 0)) (becomes y)
      (r.state ≠ .closing ∨ 1 ≤ count r .out ∨ 1 ≤ count r .staged → closeTest n s = s) ∧
      (r.state = .closing → count r .out = 0 → count r .staged = 0 →
        let a :=
          ({ r with
            voided := r.voided + count r .spoiled
            window := r.window.map fun e => e.map fun p => if p.state = .spoiled then { p with state := .voided } else p } :
              Run).advance
        closeTest n s =
          tells 0x02 { a with state := .closed, unissued := some (count a .opened + (a.quantity - (a.low + 64))) }) ∧
      (r.advance.low ≠ r.quantity ∨ r.state = .closed → advanceRun n s = becomes r.advance) ∧
      (r.advance.low = r.quantity → r.state ≠ .closed →
        advanceRun n s = tells 0x01 { r.advance with state := .closed, unissued := some 0 })) ∧
  ∀ (s : State) (h : OrderInHand) (r : Run), s.run (wordAt h.params 0) = some r →
    let n := wordAt h.params 0
    let u := acceptedState h s
    let answers : Instr → OrderResult → State → Prop := fun i res x => ∃ t, exec i s = .next t ∧ AnswersWith h res [] x t
    (Accepting writeOffCardRule h s →
      let o := (wordAt h.params 4 - r.first).toNat
      (r.state = .closed → answers .writeOffCard .notPermitted u) ∧
      (r.state ≠ .closed → (r.quantity ≤ o ∨ r.low + 64 ≤ o) → answers .writeOffCard .range u) ∧
      (r.state ≠ .closed → o < r.quantity → o < r.low → answers .writeOffCard .notPermitted u) ∧
      ∀ p, r.state ≠ .closed → o < r.quantity → r.low ≤ o → o < r.low + 64 → r.position o = some p →
        (p.state = .done ∨ p.state = .voided → answers .writeOffCard .notPermitted u) ∧
        (p.state = .staged ∨ p.state = .out → answers .writeOffCard .inUse u) ∧
        (p.state = .opened ∨ p.state = .spoiled →
          answers .writeOffCard .done
            (advanceRun n
              (u.updateRun n fun x => { x.setPosition o (some { p with state := .voided }) with voided := x.voided + 1 })))) ∧
    (Accepting deleteRunRule h s →
      (r.state ≠ .closed → answers .deleteRun .notPermitted u) ∧
      (r.state = .closed →
        answers .deleteRun .done
          { u with runs := { u.runs with table := u.runs.table.filter fun x => decide (x.number ≠ n) } }))

/-- The reading orders report and change nothing but what they say they clear: READ RUN (R75), READ RECIPE (R81), READ LINE with its
flags and, if asked, its counters (R119), READ LINK ERRORS with its flags (R134), READ TAMPER RECORD (R165). READ SLOT reports a slot
and changes nothing, and what it reports does not depend on the key value or the accumulator (R19). The bytes of each report, a value
that may be absent as 01H and the value or 00H and its width in 00H bytes (R190). The model's choice: the bytes of the reports where
R190 leaves them open, and the rounding of minutes, which stays free (log 5, log 7, log 9, log 10, log 33, log 34, log 37). Of the
tamper record's two-state values 01H is the window open and the lock release asserted (the model's choice, log 40). -/
def Obligations.ReadingOrdersReport : Prop :=
  (
    ∀ (s : State) (h : OrderInHand),
      let u := acceptedState h s
      (∀ r, Accepting readRunRule h s → s.run (wordAt h.params 0) = some r →
        ∃ t, exec .readRun s = .next t ∧ AnswersWith h .done (r.fieldReport ++ r.positionReport) u t) ∧
      (∀ (n : RecipeNo), Accepting readRecipeRule h s → (byteAt h.params 0).toNat = n.val →
        (s.recipe n = none → ∃ t, exec .readRecipe s = .next t ∧ AnswersWith h .noSuch [] u t) ∧
        ∀ actions, s.recipe n = some actions →
          ∃ t, exec .readRecipe s = .next t ∧
            AnswersWith h .done
              (actions.flatMap Action.report ++
                [byteOf (s.runs.table.countP fun r => decide (r.state ≠ .closed) && decide (r.recipe = n))]) u t) ∧
      (∀ (l : LineNo) (clear : Bool), Accepting readLineRule h s → (byteAt h.params 0).toNat = l.val →
        byteAt h.params 1 = flagByte clear →
        let x := { s.line l with flags := ⟨false, false, false⟩ }
        ∃ t, exec .readLine s = .next t ∧
          AnswersWith h .done (lineReport s l)
            (u.setLine l (if clear then { x with lapses := .zero, strays := .zero, rejects := .zero, late := .zero } else x)) t) ∧
      (Accepting readLinkErrorsRule h s →
        ∃ t, exec .readLinkErrors s = .next t ∧
          AnswersWith h .done (linkReport s)
            { u with
              link := { u.link with upFlags := ⟨false, false, false, false, false, false⟩, onFlags := ⟨false, false, false⟩ } } t) ∧
      (Accepting readTamperRecordRule h s →
        ∃ t, exec .readTamperRecord s = .next t ∧ AnswersWith h .done (tamperReport s) u t) ∧
      (Handles readTamperRecordRule h .untagged s →
        ∃ t, exec .readTamperRecord s = .next t ∧ AnswersUntagged h .done (tamperReport s) (s.endDecisionStep h) t)) ∧
  (
    (∀ (s : State) (h : OrderInHand), Accepting readSlotRule h s →
      (64 ≤ (byteAt h.params 0).toNat → ∃ t, exec .readSlot s = .next t ∧ AnswersWith h .noSuch [] (acceptedState h s) t) ∧
      ∀ n : SlotNo, (byteAt h.params 0).toNat = n.val →
        ∃ t, exec .readSlot s = .next t ∧ AnswersWith h .done (slotReport (s.slot n) s.time.millis) (acceptedState h s) t) ∧
    ∀ (k : Slot) (key accumulator : Option Block) (now : Word),
      slotReport { k with key := key, accumulator := accumulator } now = slotReport k now) ∧
  (
    let flag : Bool → Byte := fun b => if b then 0x01 else 0x00
    let maybe : Nat → Option Bytes → Bytes := fun w v =>
      match v with
      | none => 0x00 :: List.replicate w 0x00
      | some bs => 0x01 :: bs
    let count16 : Counter → Bytes := fun c => be16 c.value ++ [flag c.limit]
    (∀ r : Run,
      r.fieldReport =
        be32 r.number.toNat ++
          [r.state.code, byteOf (r.holds.order.toNat + 2 * r.holds.overspoil.toNat + 4 * r.holds.key.toNat), byteOf r.master.val] ++
          maybe 1 (r.prep.map fun n => [byteOf n.val]) ++ [byteOf r.recipe.val, byteOf r.group.val] ++ be32 r.first.toNat ++
          be32 r.quantity ++ be16 r.spoilRate ++ be32 r.allowance ++ be32 r.timeout ++ [byteOf r.postscaler, byteOf r.progress] ++
          be32 r.low ++ be32 r.issues ++ be32 r.reissues ++ be32 r.done ++ be32 r.spoiled ++ be32 r.lapsed ++ be32 r.voided ++
          count16 r.duplicates ++ count16 r.late ++ maybe 4 (r.unissued.map be32)) ∧
    (∀ r : Run,
      r.positionReport =
        ((List.range 64).filterMap fun i => r.position (r.low + i)).flatMap fun p =>
          [p.state.code, byteOf p.attempt] ++ maybe 1 (p.line.map fun l => [byteOf l.val]) ++
            maybe 1 (if p.lateEligible = true then p.lapsedLine.map fun l => [byteOf l.val] else none)) ∧
    (∀ (s : State) (l : LineNo),
      let x := s.line l
      ∃ groups : Byte, (∀ g : GroupNo, groups.getLsbD g.val = s.inGroup g l) ∧ groups.toNat < 16 ∧
        lineReport s l =
          [match x.keySlot with | none => 0xFF | some n => byteOf n.val, byteOf x.limit, byteOf x.occupied, flag x.barred,
              byteOf (x.faults.link.toNat + 2 * x.faults.lapses.toNat), byteOf x.consecutive] ++
            count16 x.lapses ++ count16 x.strays ++ count16 x.rejects ++ count16 x.late ++
            [flag x.flags.frameCheck, flag x.flags.length, flag x.flags.kind, byteOf x.transmit.length, groups,
              (s.reported l).code]) ∧
    (∀ s : State,
      let k := s.link
      linkReport s =
        [flag k.upFlags.frameCheck, flag k.upFlags.length, flag k.upFlags.kind, flag k.upFlags.tag, flag k.upFlags.number,
          flag k.upFlags.unit, flag k.onFlags.frameCheck, flag k.onFlags.length, flag k.onFlags.kind,
          byteOf k.onwardQueue.length, byteOf k.relayQueue.length, byteOf k.address, flag k.chainEnd]) ∧
    (∀ s : State,
      let m := s.tamper
      ∃ minutes : Nat,
        (∀ w, m.window = some w → w / 60000 ≤ minutes ∧ minutes ≤ w / 60000 + 1 ∧ (w % 60000 = 0 → minutes = w / 60000)) ∧
        tamperReport s =
          (m.record.flatMap fun e =>
            [match e.source with | .sensor i => byteOf i.val | .order => 0x0F] ++ be32 e.seconds ++
              maybe 2 (e.millis.map fun x => be16 x.toNat) ++ [e.action.code, e.before.code]) ++
            [byteOf m.overflow.value, flag m.overflow.limit, byteOf m.events.value, flag m.events.limit] ++
            ((List.finRange 6).flatMap fun i =>
              let x := s.sensor i
              [flag x.enable, x.polarity.code, x.mode.code, x.action.code, byteOf x.qualification, flag x.alarmMasked,
                x.status.code, flag x.input]) ++
            [flag m.window.isSome] ++ maybe 1 (m.window.map fun _ => [byteOf minutes]) ++ [flag m.window.isSome]) ∧
    (∀ (k : Slot) (now : Word),
      slotReport k now =
        [k.state.code] ++ maybe 1 (k.cls.map fun c => [c.code]) ++ maybe 3 (k.check.map fun c => be24 c.toNat) ++
          maybe 1 (k.required.map fun n => [byteOf n]) ++ maybe 4 (k.label.map fun x => be32 x.toNat) ++ be32 k.uses.value ++
          [flag k.uses.limit] ++ be32 k.ceiling ++ [flag k.lock] ++
          maybe 3 (k.components.map fun cs => (cs.map byteOf ++ [0x00, 0x00, 0x00]).take 3) ++
          maybe 3 (k.expected.map fun c => be24 c.toNat) ++ maybe 4 (k.deadline.map fun d => be32 (d - now).toNat)))

/-! ### The recipe and line orders -/

/-- DEFINE RECIPE of 1 to 16 well-formed actions, a repeat of 0 taken as 16, writes the entry unless a run that is not CLOSED names it
(IN USE); two instances that would write one result tag are RANGE (R79, R80). -/
def Obligations.DefineRecipeWritesEntry : Prop :=
  ∀ (s : State) (h : OrderInHand) (n : RecipeNo) (given : List Action), Accepting defineRecipeRule h s →
    (byteAt h.params 0).toNat = n.val →
    let u := acceptedState h s
    let taken := given.map fun a => { a with repeats := if a.repeats = 0 then 16 else a.repeats }
    let used := ∃ r ∈ s.runs.table, r.state ≠ .closed ∧ r.recipe = n
    let tags := taken.flatMap fun a => (List.range a.repeats).map fun i => byteOf (a.result + i)
    (used → ∃ t, exec .defineRecipe s = .next t ∧ AnswersWith h .inUse [] u t) ∧
    (¬used → 1 ≤ given.length → given.length ≤ 16 → h.params = [byteOf n.val, byteOf given.length] ++ given.flatMap Action.report →
      (∀ a ∈ given, a.source < 256 ∧ a.result < 256 ∧ a.repeats ≤ 16 ∧ (a.kind = .stamp ∨ a.kind = .outTag → a.repeats = 1)) →
      (∀ a ∈ taken, a.result + a.repeats ≤ 256 ∧ (a.kind ≠ .stamp → a.kind ≠ .outTag → a.source + a.repeats ≤ 256)) →
      (tags.Nodup →
        ∃ t, exec .defineRecipe s = .next t ∧
          AnswersWith h (if ∃ a ∈ given, a.repeats = 0 then .clamped else .done)
            ([byteOf n.val, byteOf given.length] ++ be16 tags.length)
            { u with recipes := u.recipes.set n.val (some taken) } t) ∧
      (¬tags.Nodup → ∃ t, exec .defineRecipe s = .next t ∧ AnswersWith h .range [] u t))

/-- SET LINE writes a line's key slot, credit limit (above 8 taken as 8, CLAMPED) and groups, with the LINE notice of a change of
reported state (R101, R104, R105, R106). SET GROUP MEMBERS replaces a group's set; SET GROUP KEY and SET GROUP CREDIT write every
member of it and report the set; a group other than A to D is RANGE (R107, R108, R109). The model's choice: a key slot that is none as
FFH (log 7), the take before the answer (log 15). The model's choice, too: the LINE notices of a take come after those of the effect
before it (log 41). -/
def Obligations.LineSettingOrders : Prop :=
  (
    ∀ (s : State) (h : OrderInHand) (l : LineNo) (key : Option SlotNo), Accepting setLineRule h s →
      (byteAt h.params 0).toNat = l.val → byteAt h.params 1 = keySlotByte key →
      (∀ n, key = some n → 7 ≤ n.val ∧ (s.slot n).state ≠ .empty ∧ (s.slot n).cls = some .line) →
      byteAt h.params 2 ≠ 0 → (byteAt h.params 3).toNat < 16 →
      let u := acceptedState h s
      let credit := min (byteAt h.params 2).toNat 8
      ∃ v x : State,
        v.dispatch.lines = u.dispatch.lines.set l.val { s.line l with keySlot := key, limit := credit } ∧
        (∀ (g : GroupNo) (m : LineNo),
          v.inGroup g m = if m = l then (byteAt h.params 3).getLsbD g.val else s.inGroup g m) ∧
        v = { u with dispatch := { u.dispatch with lines := v.dispatch.lines, groups := v.dispatch.groups } } ∧
        x = lineNotices u v ∧
        ∃ t, exec .setLine s = .next t ∧
          AnswersWith h (if 8 < (byteAt h.params 2).toNat then .clamped else .done)
            [keySlotByte key, byteOf credit, byteAt h.params 3, (v.reported l).code] (engineTake x) t) ∧
  (
    ∀ (s : State) (h : OrderInHand),
      let u := acceptedState h s
      (∀ (i : Instr) (rule : OrderRule), i ∈ [.setGroupMembers, .setGroupKey, .setGroupCredit] → orderRule i = some rule →
        Accepting rule h s → 4 ≤ (byteAt h.params 0).toNat → ∃ t, exec i s = .next t ∧ AnswersWith h .range [] u t) ∧
      ∀ g : GroupNo, (byteAt h.params 0).toNat = g.val →
        (Accepting setGroupMembersRule h s →
          ∃ t, exec .setGroupMembers s = .next t ∧
            AnswersWith h .done [byteAt h.params 1]
              (engineTake
                { u with dispatch := { u.dispatch with groups := u.dispatch.groups.set g.val (byteAt h.params 1) } }) t) ∧
        (∀ key, Accepting setGroupKeyRule h s → byteAt h.params 1 = keySlotByte key →
          (∀ n, key = some n → 7 ≤ n.val ∧ (s.slot n).state ≠ .empty ∧ (s.slot n).cls = some .line) →
          ∃ v : State,
            (∀ l, v.line l = if s.inGroup g l then { s.line l with keySlot := key } else s.line l) ∧
            v = { u with dispatch := { u.dispatch with lines := v.dispatch.lines } } ∧
            ∃ t, exec .setGroupKey s = .next t ∧ AnswersWith h .done [s.group g] (engineTake (lineNotices u v)) t) ∧
        (Accepting setGroupCreditRule h s → byteAt h.params 1 ≠ 0 →
          let credit := min (byteAt h.params 1).toNat 8
          ∃ v : State,
            (∀ l, v.line l = if s.inGroup g l then { s.line l with limit := credit } else s.line l) ∧
            v = { u with dispatch := { u.dispatch with lines := v.dispatch.lines } } ∧
            ∃ t, exec .setGroupCredit s = .next t ∧
              AnswersWith h (if 8 < (byteAt h.params 1).toNat then .clamped else .done) [s.group g, byteOf credit] (engineTake v) t))

/-- BAR LINE, UNBAR LINE, CLEAR LINE, PRODUCTION ON and PRODUCTION OFF, with the LINE notices of the reported states they change; a
line above 7 is NO SUCH; PRODUCTION OFF is taken as a broadcast too (R110, R112, R113, R150). The model's choice: the take before the
answer (log 15). The model's choice, too: the LINE notices of a take come after those of the effect before it (log 41). -/
def Obligations.LineStateOrders : Prop :=
  ∀ (s : State) (h : OrderInHand),
    let u := acceptedState h s
    (∀ (i : Instr) (rule : OrderRule), i ∈ [.barLine, .unbarLine, .clearLine] → orderRule i = some rule →
      Accepting rule h s → 8 ≤ (byteAt h.params 0).toNat → ∃ t, exec i s = .next t ∧ AnswersWith h .noSuch [] u t) ∧
    (∀ l : LineNo, (byteAt h.params 0).toNat = l.val →
      let x := s.line l
      (Accepting barLineRule h s →
        let v := u.setLine l { x with barred := true }
        ∃ t, exec .barLine s = .next t ∧ AnswersWith h .done [(v.reported l).code] (lineNotices u v) t) ∧
      (Accepting unbarLineRule h s →
        let v := u.setLine l { x with barred := false }
        ∃ t, exec .unbarLine s = .next t ∧ AnswersWith h .done [(v.reported l).code] (engineTake (lineNotices u v)) t) ∧
      (Accepting clearLineRule h s →
        let v := u.setLine l { x with consecutive := 0, faults := { x.faults with lapses := false } }
        ∃ t, exec .clearLine s = .next t ∧ AnswersWith h .done [(v.reported l).code] (engineTake (lineNotices u v)) t)) ∧
    (Accepting productionOnRule h s →
      ∃ v : State,
        (∀ l, v.line l = { s.line l with consecutive := 0, faults := { (s.line l).faults with lapses := false } }) ∧
        v = { u with dispatch := { u.dispatch with lines := v.dispatch.lines, production := true } } ∧
        ∃ t, exec .productionOn s = .next t ∧ AnswersWith h .done [] (engineTake (lineNotices u v)) t) ∧
    (Accepting productionOffRule h s →
      ∃ t, exec .productionOff s = .next t ∧
        AnswersWith h .done [] { u with dispatch := { u.dispatch with production := false } } t) ∧
    (Handles productionOffRule h .broadcast s →
      ∃ t, exec .productionOff s = .next t ∧
        AnswersUntagged h .done [] ({ s with dispatch := { s.dispatch with production := false } } : State).startIdle t)

/-! ### The tamper orders -/

/-- SET SENSOR writes a sensor's configuration; a sensor above 5 is NO SUCH, a value outside its list RANGE (R160, R189). A sensor
that is IDLE stays so, or, when its input is now active and it is enabled and not held off, begins qualifying, or trips at once with
qualification 0; a QUALIFYING sensor starts over; a TRIPPED one whose input is now inactive is released; a LATCHED one stays. It
reports configuration and status. OPEN CABINET opens the maintenance window for 1 to 30 minutes, other minutes RANGE, and a qualifying
S0 returns to IDLE; CLOSE CABINET closes it, and S0 is considered again (R155, R161, R162). The model's choice: the take before SET
SENSOR's answer (log 15). -/
def Obligations.SensorAndCabinetOrders : Prop :=
  (
    ∀ (s : State) (h : OrderInHand) (i : SensorNo) (enable masked : Bool) (polarity : Polarity) (mode : SensorMode)
      (action : TamperAction), Accepting setSensorRule h s → (byteAt h.params 0).toNat = i.val →
      byteAt h.params 1 = flagByte enable → byteAt h.params 2 = polarity.code → byteAt h.params 3 = mode.code →
      byteAt h.params 4 = action.code → byteAt h.params 6 = flagByte masked →
      let u := acceptedState h s
      let q := (byteAt h.params 5).toNat
      let x : Sensor :=
        { s.sensor i with
          enable := enable, polarity := polarity, mode := mode, action := action, qualification := q, alarmMasked := masked }
      let config : Bytes := [flagByte enable, polarity.code, mode.code, action.code, byteOf q, flagByte masked]
      let arms := enable = true ∧ x.active = true ∧ ¬(i = 0 ∧ s.tamper.window ≠ none)
      let answers : State → SensorStatus → Prop := fun v status =>
        ∃ t, exec .setSensor s = .next t ∧ AnswersWith h .done (config ++ [status.code]) (engineTake v) t
      ((s.sensor i).status = .idle → ¬arms → answers (u.setSensor i x) .idle) ∧
      ((s.sensor i).status = .idle → arms → q ≠ 0 →
        answers (u.setSensor i { x with status := .qualifying, timer := some q }) .qualifying) ∧
      ((s.sensor i).status = .qualifying → ¬arms →
        answers (u.setSensor i { x with status := .idle, timer := none }) .idle) ∧
      ((s.sensor i).status = .qualifying → arms → q ≠ 0 →
        answers (u.setSensor i { x with status := .qualifying, timer := some q }) .qualifying) ∧
      ((s.sensor i).status = .idle → arms → q = 0 →
        answers (trip i (u.setSensor i x)) (if action = .suspend ∧ mode = .transient then .tripped else .latched)) ∧
      ((s.sensor i).status = .qualifying → arms → q = 0 →
        answers (trip i (u.setSensor i { x with status := .idle, timer := none }))
          (if action = .suspend ∧ mode = .transient then .tripped else .latched)) ∧
      ((s.sensor i).status = .latched → answers (u.setSensor i x) .latched) ∧
      ((s.sensor i).status = .tripped → x.active = true → answers (u.setSensor i x) .tripped) ∧
      ((s.sensor i).status = .tripped → x.active = false →
        answers ((u.setSensor i { x with status := .idle, timer := none }).setCause i false) .idle)) ∧
  (
    ∀ (s : State) (h : OrderInHand), Accepting setSensorRule h s →
      let ps := h.params
      let refusedWith : OrderResult → Prop := fun r => ∃ t, exec .setSensor s = .next t ∧ AnswersWith h r [] (acceptedState h s) t
      (6 ≤ (byteAt ps 0).toNat → refusedWith .noSuch) ∧
      ((byteAt ps 0).toNat < 6 → (∃ i ∈ [1, 2, 3, 4, 6], 2 ≤ (byteAt ps i).toNat) → refusedWith .range)) ∧
  (
    ∀ (s : State) (h : OrderInHand),
      let u := acceptedState h s
      let m := (byteAt h.params 0).toNat
      (Accepting openCabinetRule h s →
        (m = 0 ∨ 30 < m → ∃ t, exec .openCabinet s = .next t ∧ AnswersWith h .range [] u t) ∧
        (1 ≤ m → m ≤ 30 →
          let v : State := { u with tamper := { u.tamper with window := some (m * 60000) } }
          ∃ t, exec .openCabinet s = .next t ∧
            AnswersWith h .done [byteAt h.params 0]
              (if (s.sensor 0).status = .qualifying then v.setSensor 0 { s.sensor 0 with status := .idle, timer := none } else v) t)) ∧
      (Accepting closeCabinetRule h s →
        (s.tamper.window = none → ∃ t, exec .closeCabinet s = .next t ∧ AnswersWith h .done [] u t) ∧
        (s.tamper.window ≠ none →
          let v : State := { u with tamper := { u.tamper with window := none } }
          ((s.sensor 0).status ≠ .idle ∨ (s.sensor 0).enable = false ∨ (s.sensor 0).active = false →
            ∃ t, exec .closeCabinet s = .next t ∧ AnswersWith h .done [] v t) ∧
          ((s.sensor 0).status = .idle → (s.sensor 0).enable = true → (s.sensor 0).active = true → (s.sensor 0).qualification = 0 →
            ∃ t, exec .closeCabinet s = .next t ∧ AnswersWith h .done [] (trip 0 v) t) ∧
          ((s.sensor 0).status = .idle → (s.sensor 0).enable = true → (s.sensor 0).active = true → (s.sensor 0).qualification ≠ 0 →
            ∃ t, exec .closeCabinet s = .next t ∧
              AnswersWith h .done []
                (v.setSensor 0 { s.sensor 0 with status := .qualifying, timer := some (s.sensor 0).qualification }) t))))

/-- RESUME releases every LATCHED sensor whose input is inactive, with its cause of suspension, and reports the sensors released and
those still LATCHED; with none to release it is NOT PERMITTED (R7, R159). ACK TAMPER empties the tamper record and its overflow count
and reports what they held; in ZEROISED, with the commissioning contact, it takes the unit to FACTORY and releases the LATCHED sensors
whose input is inactive, without it NOT PERMITTED (R29, R142, R166). The model's choice: the take before RESUME's answer (log 15), and
the overflow count without its limit flag (log 36). -/
def Obligations.TamperIsReleased : Prop :=
  (
    ∀ (s : State) (h : OrderInHand), Accepting resumeRule h s →
      let u := acceptedState h s
      let free : SensorNo → Prop := fun i => (s.sensor i).status = .latched ∧ (s.sensor i).active = false
      ((∀ i, ¬free i) → ∃ t, exec .resume s = .next t ∧ AnswersWith h .notPermitted [] u t) ∧
      ((∃ i, free i) →
        ∃ v : State,
          (∀ i, (free i → v.sensor i = { s.sensor i with status := .idle, timer := none } ∧ v.store.suspend[i.val] = false) ∧
            (¬free i → v.sensor i = s.sensor i ∧ v.store.suspend[i.val] = s.store.suspend[i.val])) ∧
          v = { u with
            tamper := { u.tamper with sensors := v.tamper.sensors }, store := { u.store with suspend := v.store.suspend } } ∧
          ∃ (t : State) (released latched : Byte), exec .resume s = .next t ∧
            AnswersWith h .done [released, latched] (engineTake v) t ∧
            ∀ i : SensorNo, (released.getLsbD i.val = true ↔ free i) ∧
              (latched.getLsbD i.val = true ↔ (s.sensor i).status = .latched ∧ ¬free i))) ∧
  (
    ∀ (s : State) (h : OrderInHand) (contact : Bool), s.isSettling = false → s.busy = false →
      let values : Bytes := [byteOf s.tamper.record.length, byteOf s.tamper.overflow.value]
      let cleared : State → State := fun u => { u with tamper := { u.tamper with record := [], overflow := { value := 0, limit := false } } }
      (Accepting (ackTamperRule contact) h s → s.store.custody = .operational →
        ∃ t, exec (.ackTamper contact) s = .next t ∧ AnswersWith h .done values (cleared (acceptedState h s)) t) ∧
      (Handles (ackTamperRule contact) h .untagged s → s.store.custody = .zeroised →
        (contact = false →
          ∃ t, exec (.ackTamper contact) s = .next t ∧ AnswersUntagged h .notPermitted [] (s.endDecisionStep h) t) ∧
        (contact = true →
          ∃ t, exec (.ackTamper contact) s = .next t ∧
            AnswersUntagged h .done values (releaseLatched ((cleared (s.endDecisionStep h)).setCustody .factory)) t)))

/-! ### Frames that arrive -/

/-- The upstream receiver (R124 to R129, R137, R150): a frame is received while the link is up and the receiver ready; it is discarded
at its first failing check with that check's flag; an ORDER for this unit is handed to the Order Unit, one for another goes onward, a
broadcast the unit takes goes both ways. The model's choice: a failing frame by whichever row, and a broadcast's least body (log 18,
log 30). -/
def Obligations.UpstreamFramesAreClassified : Prop :=
  ∀ (s : State) (frame : Bytes) (i : Instr), i ∈ [.orderFrame frame, .record frame, .upstreamFrameError frame] →
    s.power.supply = .main → s.link.upLink = true → s.link.onwardQueue.length < 8 → s.order.hand = none →
    let flags : UpFlags → State := fun f => { s with link := { s.link with upFlags := f } }
    let queued : State := { s with link := { s.link with onwardQueue := s.link.onwardQueue ++ [frame] } }
    let kind := byteAt frame 0
    let unit := (byteAt frame 1).toNat
    let body := frameBody frame
    let broadcast := unit = 31 ∧ 9 ≤ body.length ∧ (byteAt body 0 = 0x01 ∨ byteAt body 0 = 0x38)
    (lengthFault frame = true → exec i s = .next (flags { s.link.upFlags with length := true })) ∧
    (lengthFault frame = false →
      (checkFault frame = true → exec i s = .next (flags { s.link.upFlags with frameCheck := true })) ∧
      (checkFault frame = false →
        (kind ≠ 0x01 → kind ≠ 0x02 → exec i s = .next (flags { s.link.upFlags with kind := true })) ∧
        (kind = 0x01 → unit ≠ 31 → exec i s = .next (flags { s.link.upFlags with unit := true })) ∧
        (kind = 0x02 → s.link.address ≤ 30 → unit ≠ s.link.address →
            (31 < unit ∨ (unit = 31 ∧ ¬broadcast) ∨ (unit ≤ 30 ∧ s.link.chainEnd = true)) →
          exec i s = .next (flags { s.link.upFlags with unit := true })) ∧
        (i = .orderFrame frame → kind = 0x02 → s.quiet →
          (unit = s.link.address → ∃ t, exec i s = .next t ∧ SettlesTo (handOver frame false s) t) ∧
          (unit ≠ s.link.address → unit ≤ 30 → s.link.chainEnd = false → exec i s = .next queued) ∧
          (unit ≠ s.link.address → broadcast →
            ∃ t, exec i s = .next t ∧ SettlesTo (handOver frame true (if s.link.chainEnd then s else queued)) t))))

/-- Admission (R57, R58, R59): a record of a LIVE run whose position in the window is OPEN or SPOILED is staged; each refusal offers
its REFUSAL notice, in the order of R57, a duplicate counted; a record of an unknown run is refused at the chain end and handed onward
elsewhere. A record that this unit decides starts the idle timer (R187). The model's choice: the REFUSAL notice carries its reason as
a value and precedes the count of a duplicate (log 8, log 13). -/
def Obligations.RecordsAreAdmitted : Prop :=
  ∀ (s : State) (frame : Bytes), s.power.supply = .main → s.link.upLink = true → s.link.onwardQueue.length < 8 →
    s.order.hand = none → s.upFault frame = none → byteAt frame 0 = 0x01 → s.quiet → (s.runs.table.map Run.number).Nodup →
    let body := frameBody frame
    let n := wordAt body 0
    let seq := wordAt body 4
    let u := s.startIdle
    let gives : State → Prop := fun x => ∃ t, exec (.record frame) s = .next t ∧ SettlesTo (engineTake x) t
    let refusal : Byte → State := fun code => offer .refusal code (be32 n.toNat ++ be32 seq.toNat ++ [code]) u
    (body.length < 9 →
      gives
        (offer .refusal 0x0A
          (be32 (if body.length < 4 then 0 else n).toNat ++ be32 (if body.length < 8 then 0 else seq).toNat ++ [0x0A]) u)) ∧
    (9 ≤ body.length → s.run n = none →
      (s.link.chainEnd = true → gives (refusal 0x01)) ∧
      (s.link.chainEnd = false →
        gives { s with link := { s.link with onwardQueue := s.link.onwardQueue ++ [frame] } })) ∧
    ∀ r, 9 ≤ body.length → s.run n = some r →
      let o := (seq - r.first).toNat
      (recordFields body = none → gives (refusal 0x0A)) ∧
      ∀ fields, recordFields body = some fields →
        (r.state ≠ .live → gives (refusal 0x02)) ∧
        (r.state = .live →
          (s.store.custody ≠ .operational ∨ s.suspended = true → gives (refusal 0x09)) ∧
          (s.store.custody = .operational → s.suspended = false →
            (r.quantity ≤ o → gives (refusal 0x03)) ∧
            (o < r.quantity → o < r.low → gives (refusal 0x05)) ∧
            (o < r.quantity → r.low + 64 ≤ o → gives (refusal 0x04)) ∧
            ∀ p, r.position o = some p →
              (p.state = .staged ∨ p.state = .out ∨ p.state = .done →
                gives ((refusal 0x06).updateRun n fun x => { x with duplicates := bumpCounter 65535 x.duplicates })) ∧
              (p.state = .voided → gives (refusal 0x07)) ∧
              (p.state = .opened ∨ p.state = .spoiled →
                (32 ≤ s.runs.staging.length → gives (refusal 0x08)) ∧
                (s.runs.staging.length < 32 →
                  let x := u.updateRun n fun x =>
                    x.setPosition o
                      (some { p with state := .staged, prior := some (if p.state = .spoiled then .spoiled else .opened) })
                  gives
                    { x with
                      runs := { x.runs with
                        staging := s.runs.staging ++ [{ run := n, seq := seq, fields := fields }] } }))))

/-- The record ports (R122, R129, R130, R131, R132): the relay queue takes the answers and notices of the onward port, the onward
transmitter takes the oldest frame of the onward queue, a sent frame leaves its transmitter, and the links rise and fall. The line
ports (R111, R115): a port with a ready station begins its oldest frame, a sent frame leaves its queue; a lost link adds LINK and a
restored one removes it, with the LINE notice of a change of reported state. The model's choice: readiness is implied by a begin of
sending (log 6), and a link loss keeps the mark that the frame at the head was begun (log 22). The model's choice, too: the LINE
notices of a take come after those of the effect before it (log 41). -/
def Obligations.PortsMoveFrames : Prop :=
  (
    ∀ s : State,
      (∀ frame, s.power.supply = .main → s.link.onLink = true → s.link.relayQueue.length < 8 →
        (lengthFault frame = true →
          exec (.relayFrame frame) s = .next { s with link := { s.link with onFlags := { s.link.onFlags with length := true } } }) ∧
        (lengthFault frame = false → checkFault frame = true →
          exec (.relayFrame frame) s =
            .next { s with link := { s.link with onFlags := { s.link.onFlags with frameCheck := true } } }) ∧
        (lengthFault frame = false → checkFault frame = false → byteAt frame 0 ≠ 0x03 → byteAt frame 0 ≠ 0x04 →
          exec (.relayFrame frame) s = .next { s with link := { s.link with onFlags := { s.link.onFlags with kind := true } } }) ∧
        (lengthFault frame = false → checkFault frame = false → byteAt frame 0 = 0x03 ∨ byteAt frame 0 = 0x04 →
          exec (.relayFrame frame) s = .next { s with link := { s.link with relayQueue := s.link.relayQueue ++ [frame] } })) ∧
      (∀ f rest, s.power.supply = .main → s.link.onLink = true → s.link.onTx = none → s.link.onwardQueue = f :: rest →
        exec .onwardSendBegin s = .next { s with link := { s.link with onwardQueue := rest, onTx := some f } }) ∧
      (s.power.supply = .main → s.link.onLink = true → s.link.onTx ≠ none →
        exec .onwardSendComplete s = .next { s with link := { s.link with onTx := none } }) ∧
      (s.power.supply = .main → s.link.upLink = true → s.link.upTx ≠ none →
        exec .upstreamSendComplete s = .next { s with link := { s.link with upTx := none } }) ∧
      exec (.portLinkLoss .upstream) s = .next { s with link := { s.link with upLink := false } } ∧
      exec (.portLinkLoss .onward) s = .next { s with link := { s.link with onLink := false } } ∧
      exec (.portLinkRestore .upstream) s = .next { s with link := { s.link with upLink := true } } ∧
      exec (.portLinkRestore .onward) s = .next { s with link := { s.link with onLink := true } }) ∧
  (
    ∀ (s : State) (l : LineNo), s.power.supply = .main →
      let x := s.line l
      (x.linkUp = true → x.sending = false → x.transmit ≠ [] →
        exec (.lineSendBegin l) s = .next (s.setLine l { x with begun := true, sending := true })) ∧
      (x.linkUp = true → x.sending = true →
        exec (.lineSendComplete l) s =
          .next (s.setLine l { x with transmit := x.transmit.tail, begun := false, sending := false })) ∧
      (x.linkUp = true → s.quiet →
        ∃ t, exec (.lineLinkLoss l) s = .next t ∧
          SettlesTo
            (lineNotices s (s.setLine l { x with linkUp := false, sending := false, faults := { x.faults with link := true } })) t) ∧
      (x.linkUp = false → s.quiet →
        ∃ t, exec (.lineLinkRestore l) s = .next t ∧
          SettlesTo
            (engineTake
              (lineNotices s (s.setLine l { x with linkUp := true, faults := { x.faults with link := false } }))) t))

/-- The upstream arbiter (R131, R137, R174): of the sources that have a frame waiting, the first in the rotation after the one served
last sends its oldest frame and is served last; an answer that leaves frees the Order Unit, a notice waits until its tag is computed.
-/
def Obligations.UpstreamArbiterRotates : Prop :=
  ∀ s : State, s.power.supply = .main → s.link.upLink = true → s.link.upTx = none →
    let answerWaits := s.order.answer ≠ none
    let noticeWaits := ∃ n rest tag, s.report.notices = n :: rest ∧ n.tag = .ready tag
    let relayWaits := s.link.relayQueue ≠ []
    let gives : State → Prop := fun t => exec .upstreamTransmitChoice s = .next t
    let last := s.link.served
    (∀ f, s.order.answer = some f →
      last = .relay ∨ (last = .notice ∧ ¬relayWaits) ∨ (last = .answer ∧ ¬noticeWaits ∧ ¬relayWaits) →
      gives { s with
        order := { s.order with answer := none, hand := none }
        link := { s.link with upTx := some f, served := .answer } }) ∧
    (∀ n rest tag, s.report.notices = n :: rest → n.tag = .ready tag →
      last = .answer ∨ (last = .relay ∧ ¬answerWaits) ∨ (last = .notice ∧ ¬relayWaits ∧ ¬answerWaits) →
      gives { s with
        report := { s.report with notices := rest }
        link := { s.link with upTx := some (sealFrame (n.message ++ bytesOfTag tag)), served := .notice } }) ∧
    (∀ f rest, s.link.relayQueue = f :: rest →
      last = .notice ∨ (last = .answer ∧ ¬noticeWaits) ∨ (last = .relay ∧ ¬answerWaits ∧ ¬noticeWaits) →
      gives { s with link := { s.link with relayQueue := rest, upTx := some f, served := .relay } }) ∧
    (¬answerWaits → ¬noticeWaits → ¬relayWaits → gives s)

/-! ### The line ports, outcomes and lapses -/

/-- An OUTCOME frame (R64, R65, R66, R117, R118): a fault of the frame sets its flag; an outcome of a card OUT on this line settles it
and returns its credit; one of a card that lapsed on this line is late; any other is a stray. Late and stray outcomes change counters
and offer a CARD notice, no more. The model's choice: the moment of the CARD notices (log 13). -/
def Obligations.OutcomesAreTaken : Prop :=
  ∀ (s : State) (l : LineNo) (frame : Bytes), s.power.supply = .main → (s.line l).linkUp = true →
    let x := s.line l
    let body := frameBody frame
    let n := wordAt body 0
    let seq := wordAt body 4
    let e := Instr.outcome l frame
    let flagged : PortFlags → Prop := fun f => exec e s = .next (s.setLine l { x with flags := f })
    let gives : State → Prop := fun u => ∃ t, exec e s = .next t ∧ SettlesTo (engineTake u) t
    (lengthFault frame = true → flagged { x.flags with length := true }) ∧
    (lengthFault frame = false → checkFault frame = true → flagged { x.flags with frameCheck := true }) ∧
    (lengthFault frame = false → checkFault frame = false → byteAt frame 0 ≠ 0x06 → flagged { x.flags with kind := true }) ∧
    (lengthFault frame = false → checkFault frame = false → byteAt frame 0 = 0x06 → body.length ≠ 9 →
      flagged { x.flags with length := true }) ∧
    (lengthFault frame = false → checkFault frame = false → byteAt frame 0 = 0x06 → body.length = 9 → byteAt body 8 ≠ 0x01 →
      byteAt body 8 ≠ 0x02 → byteAt body 8 ≠ 0x03 → flagged { x.flags with kind := true }) ∧
    ∀ result : CardResult, lengthFault frame = false → checkFault frame = false → byteAt frame 0 = 0x06 → body.length = 9 →
      byteAt body 8 = result.code → s.quiet →
      let stray := offer .card 0x04 (be32 n.toNat ++ be32 seq.toNat ++ [byteOf l.val, result.code])
        (s.setLine l { x with strays := bumpCounter 65535 x.strays })
      (s.run n = none → gives stray) ∧
      ∀ r, s.run n = some r →
        let o := (seq - r.first).toNat
        (r.position o = none → gives stray) ∧
        ∀ p, r.position o = some p →
          (p.state = .out ∧ p.line = some l → gives (settle l n o seq p result s)) ∧
          (¬(p.state = .out ∧ p.line = some l) →
            (p.lateEligible = true → p.lapsedLine = some l →
              gives
                (offer .card 0x03 (be32 n.toNat ++ be32 seq.toNat ++ [byteOf l.val, result.code])
                  ((s.updateRun n fun y => { y with late := bumpCounter 65535 y.late }).setLine l
                    { x with late := bumpCounter 65535 x.late }))) ∧
            (p.lateEligible = false ∨ p.lapsedLine ≠ some l → gives stray))

/-- What settling a card does to the books (R64): DONE counts the card and the run's progress, which at N returns to 0 with a PROGRESS
notice (R69); a spoiled or rejected card is counted spoiled, SPOILED below its fourth attempt, VOID and counted so at it with a CARD
notice VOID, and holds the run OVERSPOIL when the spoils pass the allowance (R52). After DONE or VOID the low mark is advanced and may
complete the run; a CLOSING run is then tested (R70, R72; RunEndingOrders and LowMarkAdvances say what these do). The card's credit
comes back and its waiting frame is removed unless its sending has begun (R116). The model's choice: PROGRESS is offered before the
low mark moves (log 13). -/
def Obligations.SettlementKeepsTheBooks : Prop :=
  ∀ (s : State) (l : LineNo) (r : Run) (seq : Word) (p : Position), (s.runs.table.map Run.number).Nodup → r ∈ s.runs.table →
    let n := r.number
    let o := (seq - r.first).toNat
    r.position o = some p →
    let x := s.line l
    let waits : List CardFrame → List CardFrame := fun q => q.filter fun c => decide (¬(c.run = n ∧ c.seq = seq))
    let back : Line := { x with
      occupied := x.occupied - 1
      transmit := if x.begun then x.transmit.take 1 ++ waits (x.transmit.drop 1) else waits x.transmit }
    let becomes : State → Run → State := fun u y =>
      { u with runs := { u.runs with table := u.runs.table.map fun z => if z.number = n then y else z } }
    let finished : Run := { r with
      window := (r.setPosition o (some { p with state := .done, line := none, dispatched := none })).window
      done := r.done + 1, progress := r.progress + 1 }
    let counted : Run := { finished with progress := 0 }
    let spoiledRun : Run := { r with
      window := (r.setPosition o
        (some { p with state := if p.attempt = 4 then .voided else .spoiled, line := none, dispatched := none })).window
      spoiled := r.spoiled + 1, voided := if p.attempt = 4 then r.voided + 1 else r.voided }
    let overspoilt : Run → Run := fun y => { y with
      holds := if r.allowance < r.spoiled + 1 then { r.holds with overspoil := true } else r.holds
      state := if r.allowance < r.spoiled + 1 ∧ r.state = .live then .held else r.state }
    let doneLine := s.setLine l { back with consecutive := 0 }
    let spoilLine : CardResult → State := fun res =>
      s.setLine l (if res = .rejected then { back with rejects := bumpCounter 65535 x.rejects } else back)
    (r.progress + 1 < r.postscaler → settle l n o seq p .done s = closeTest n (advanceRun n (becomes doneLine finished))) ∧
    (r.postscaler ≤ r.progress + 1 →
      settle l n o seq p .done s =
        closeTest n
          (advanceRun n
            (offer .progress 0x00
              (be32 n.toNat ++ [r.state.code] ++ be32 r.low ++ be32 r.issues ++ be32 r.reissues ++ be32 (r.done + 1) ++
                be32 r.spoiled ++ be32 r.lapsed ++ be32 r.voided) (becomes doneLine counted)))) ∧
    (∀ res, res = .spoiled ∨ res = .rejected →
      (p.attempt ≠ 4 → settle l n o seq p res s = closeTest n (becomes (spoilLine res) (overspoilt spoiledRun))) ∧
      (p.attempt = 4 →
        settle l n o seq p res s =
          closeTest n
            (advanceRun n
              (becomes
                (offer .card 0x01 (be32 n.toNat ++ be32 seq.toNat ++ [byteOf l.val, 0x04]) (becomes (spoilLine res) spoiledRun))
                (overspoilt spoiledRun))))) ∧
    (r.state ≠ .closing →
      (r.progress + 1 < r.postscaler → finished.lowSettled = false → r.low ≠ r.quantity →
        settle l n o seq p .done s = becomes doneLine finished) ∧
      (p.attempt ≠ 4 → ∀ res, res = .spoiled ∨ res = .rejected →
        settle l n o seq p res s = becomes (spoilLine res) (overspoilt spoiledRun)))

/-- LAPSE (R67, R112, R170): a position whose outcome timer has run out while it is OUT is lapsed: its credit comes back and its
waiting frame is removed (R116), the line counts the lapse and gains LAPSES at the third in a row, the run counts it spoiled and
lapsed, the position is late-eligible, SPOILED before its fourth attempt, VOID and counted so at it; a CARD notice LAPSED and, at the
fourth, one VOID, then the LINE notice; OVERSPOIL (R52); after VOID the low mark is advanced; a CLOSING run is tested (R72;
RunEndingOrders and LowMarkAdvances say what these do). A deadline that has not been reached, or a card not OUT, is no lapse. The
model's choice: the summary a notice shows is that of its moment in this order (log 13). The model's choice, too: the LINE notices of
a take come after those of the effect before it (log 41). -/
def Obligations.OutcomeTimerLapses : Prop :=
  ∀ (s : State) (r : Run) (o : Nat) (p : Position) (l : LineNo) (d : Word), s.power.supply = .main →
    (s.runs.table.map Run.number).Nodup → r ∈ s.runs.table → r.position o = some p → s.quiet →
    let n := r.number
    let seq := r.first + BitVec.ofNat 32 o
    let reached := (s.time.millis - (d + BitVec.ofNat 32 r.timeout)).toNat < 2147483648
    (p.state ≠ .out → exec (.lapse n o) s = .next s) ∧
    (p.state = .out → p.line = some l → p.dispatched = some d →
      (¬reached → exec (.lapse n o) s = .next s) ∧
      (reached →
        let x := s.line l
        let waits : List CardFrame → List CardFrame := fun q => q.filter fun c => decide (¬(c.run = n ∧ c.seq = seq))
        let y : Line := { x with
          occupied := x.occupied - 1
          transmit := if x.begun then x.transmit.take 1 ++ waits (x.transmit.drop 1) else waits x.transmit
          lapses := bumpCounter 65535 x.lapses
          consecutive := if x.consecutive < 3 then x.consecutive + 1 else x.consecutive
          faults := if 2 ≤ x.consecutive then { x.faults with lapses := true } else x.faults }
        let z : Run := { r with
          window := (r.setPosition o
            (some { p with
              state := if p.attempt = 4 then .voided else .spoiled, line := none, dispatched := none, lateEligible := true,
              lapsedLine := some l })).window
          spoiled := r.spoiled + 1, lapsed := r.lapsed + 1, voided := if p.attempt = 4 then r.voided + 1 else r.voided }
        let overspoilt : Run := { z with
          holds := if r.allowance < r.spoiled + 1 then { r.holds with overspoil := true } else r.holds
          state := if r.allowance < r.spoiled + 1 ∧ r.state = .live then .held else r.state }
        let put : Run → State → State := fun w u =>
          { u with runs := { u.runs with table := u.runs.table.map fun v => if v.number = n then w else v } }
        let card : Byte → State → State := fun variant u =>
          offer .card variant (be32 n.toNat ++ be32 seq.toNat ++ [byteOf l.val, byteOf p.attempt]) u
        let lapsed := card 0x02 (put z (s.setLine l y))
        let gives : State → Prop := fun u => ∃ t, exec (.lapse n o) s = .next t ∧ SettlesTo (engineTake u) t
        (p.attempt ≠ 4 → gives (closeTest n (put overspoilt (lineNotices s lapsed)))) ∧
        (p.attempt = 4 → gives (closeTest n (advanceRun n (put overspoilt (lineNotices s (card 0x01 lapsed)))))) ∧
        (p.attempt ≠ 4 → r.state ≠ .closing → gives (put overspoilt (lineNotices s lapsed)))))

/-- The low mark (R56, R70): it moves up past every settled position and stops at the first that is not, or at Q; each place it moves
releases a ring entry for the position 64 above, OPEN while that lies in the run. -/
def Obligations.LowMarkAdvances : Prop :=
  ∀ r : Run, r.low ≤ r.quantity →
    let a := r.advance
    r.low ≤ a.low ∧ a.low ≤ r.low + 64 ∧ a.low ≤ r.quantity ∧
    (∀ o, r.low ≤ o → o < a.low → ∃ p, r.position o = some p ∧ (p.state = .done ∨ p.state = .voided)) ∧
    (∀ p, a.position a.low = some p → p.state ≠ .done ∧ p.state ≠ .voided) ∧
    (∀ o, a.low ≤ o → o < r.low + 64 → a.position o = r.position o) ∧
    (∀ o, r.low + 64 ≤ o → o < a.low + 64 → o < r.quantity → a.position o = some Position.fresh) ∧
    a = { r with low := a.low, window := a.window }

/-! ### The engine -/

/-- The take (R90, R91, R114): an IDLE engine takes the oldest staged record whose run is LIVE with usable keys and an open line,
while the unit is OPERATIONAL and not SUSPENDED; the line is the one of the run's group with the least occupied credit, the lowest of
equals; its credit is reserved and the walk begins. A walk that needs no cipher step, or fails before one, ends within the event
(R92): the record completes (R93) or fails (R95), as RecordLeavesTheEngine says, and the IDLE engine takes the next. A working engine
takes nothing. A line is dispatchable while production is ON, it is READY, and its occupied credit is below its limit (R114); the keys
of a run are usable while its master slot is, and, with a REWRAP in its recipe, its prep slot too (R3). The model's choice: the LINE
notices of a take come after those of the effect before it (log 41). -/
def Obligations.EngineTakesTheOldestEligible : Prop :=
  (
    ∀ s : State,
    (s.engine ≠ none → engineTake s = s) ∧
    ((∀ x ∈ s.runs.staging, s.eligible x = false) → engineTake s = s) ∧
    (∀ x : StagedRecord, s.eligible x = true ↔
      ∃ r, s.run x.run = some r ∧ r.state = .live ∧ s.store.custody = .operational ∧ s.suspended = false ∧
        s.keysUsable r = true ∧ ∃ l, s.inGroup r.group l = true ∧ s.dispatchable l = true) ∧
    (∀ (g : GroupNo) (l : LineNo), s.chooseLine g = some l ↔
      s.inGroup g l = true ∧ s.dispatchable l = true ∧
        ∀ m, s.inGroup g m = true → s.dispatchable m = true →
          (s.line l).occupied < (s.line m).occupied ∨ ((s.line l).occupied = (s.line m).occupied ∧ l.val ≤ m.val)) ∧
    (∀ before x after r l key actions, s.engine = none → s.runs.staging = before ++ x :: after →
      (∀ y ∈ before, s.eligible y = false) → s.eligible x = true → s.run x.run = some r → s.chooseLine r.group = some l →
      (s.line l).keySlot = some key → s.recipe r.recipe = some actions →
      ∃ w u, w.run = x.run ∧ w.seq = x.seq ∧ w.fields = x.fields ∧ w.line = l ∧ w.keySlot = key ∧ w.recipe = r.recipe ∧
        w.output = [] ∧ w.size = 10 ∧
        w.attempt = (match r.position (r.offset x.seq) with | none => 1 | some p => p.attempt + 1) ∧
        u = { s.setLine l { s.line l with occupied := (s.line l).occupied + 1 } with
          runs := { s.runs with staging := s.runs.staging.erase x } } ∧
        (∀ v c t, walk (expandRecipe actions) w u = (.waits v c, t) →
          engineTake s = { t with engine := some v, core := { t.core with engineWaits := some c } }) ∧
        (∀ v reason t, walk (expandRecipe actions) w u = (.fails v reason, t) → engineTake s = engineTake (failRecord v reason t)) ∧
        (∀ v t, walk (expandRecipe actions) w u = (.completes v, t) → engineTake s = engineTake (completeRecord v t)))) ∧
  (
    ∀ s : State,
      let usable : SlotNo → Prop := fun n =>
        (s.slot n).state = .active ∧ ((s.slot n).ceiling = 0 ∨ (s.slot n).uses.value < (s.slot n).ceiling)
      (∀ l, s.dispatchable l = true ↔
        s.dispatch.production = true ∧ s.reported l = .ready ∧ (s.line l).occupied < (s.line l).limit) ∧
      (∀ g l, s.inGroup g l = true ↔ (s.group g).getLsbD l.val = true) ∧
      ∀ r : Run, s.keysUsable r = true ↔
        usable r.master ∧
          ∀ actions a, s.recipe r.recipe = some actions → a ∈ actions → a.kind = .rewrap → ∃ n, r.prep = some n ∧ usable n)

/-- The walk (R83 to R88, R92): an absent source skips an optional instance and fails MISSING FIELD otherwise; then the form, BAD
IDENTITY or BAD LENGTH (R37, R40); then the size, OUTPUT OVERSIZE; COPY and STAMP are written at once, DERIVE, REWRAP and OUTTAG ask
for their first use and wait for their first step (R38, R39, R41), or fail with the refusal's reason. The steps of an instance in
progress (R39, R40, R41, R92): DERIVE makes the card key, wraps it under the line key and takes its check value, and writes the
wrapped key and the first 3 bytes of the check; REWRAP deciphers each block under the prep key and enciphers it under the line key;
OUTTAG writes the first 8 bytes of its last chain value. A refused use fails the record with its reason. -/
def Obligations.InstancesTransformFields : Prop :=
  (
    ∀ (a : ActionInst) (rest : List ActionInst) (w : Work) (s : State),
      let here : Work := { w with todo := a :: rest }
      let source := (w.fields.find? fun f => f.tag == a.source).map Field.value
      let fits : Nat → Prop := fun n => w.size + 2 + n ≤ 1000
      let gives : WalkEnd × State → Prop := fun r => walk (a :: rest) w s = r
      let writes : Bytes → Prop := fun v =>
        gives
          (walk rest
            { w with todo := rest, output := w.output ++ [{ tag := a.result, value := v }], size := w.size + 2 + v.length } s)
      let asks : SlotNo → UseKind → (Block → Waiting) → (Block → CipherStep) → Prop := fun n u waiting step =>
        (∀ key t, requestUse n u s = (.ok key, t) → gives (.waits { here with waiting := waiting key } (step key), t)) ∧
        (∀ reason t, requestUse n u s = (.error reason, t) → gives (.fails here reason, t))
      walk [] w s = (.completes { w with todo := [] }, s) ∧
      (a.kind = .copy ∨ a.kind = .derive ∨ a.kind = .rewrap → source = none →
        (a.optional = true → gives (walk rest here s)) ∧ (a.optional = false → gives (.fails here .missingField, s))) ∧
      (a.kind = .stamp →
        (fits 12 →
          writes
            (be32 w.run.toNat ++ be32 w.seq.toNat ++ [byteOf w.attempt, byteOf w.line.val, byteOf w.recipe.val, 0])) ∧
        (¬fits 12 → gives (.fails here .outputOversize, s))) ∧
      (a.kind = .outTag →
        let start : Block → TagJob := fun key =>
          TagJob.start key (w.output.flatMap fun f => [f.tag, byteOf f.value.length] ++ f.value)
        (fits 8 → asks w.keySlot .wrap (fun key => .outTag (start key)) fun key => (start key).step) ∧
        (¬fits 8 → gives (.fails here .outputOversize, s))) ∧
      ∀ v, source = some v →
        (a.kind = .copy → (fits v.length → writes v) ∧ (¬fits v.length → gives (.fails here .outputOversize, s))) ∧
        (a.kind = .derive →
          (validIdentity v = false → gives (.fails here .badIdentity, s)) ∧
          (validIdentity v = true → ¬fits 19 → gives (.fails here .outputOversize, s)) ∧
          ∀ r, validIdentity v = true → fits 19 → s.run w.run = some r →
            asks r.master .derivation (fun _ => .deriveKey (derivationBlock v a.variant)) fun key =>
              { fn := .enc, key := key, block := derivationBlock v a.variant }) ∧
        (a.kind = .rewrap →
          let sized := v.length = 16 ∨ v.length = 32 ∨ v.length = 48 ∨ v.length = 64
          (¬sized → gives (.fails here .badLength, s)) ∧
          (sized → ¬fits v.length → gives (.fails here .outputOversize, s)) ∧
          ∀ r n, sized → fits v.length → s.run w.run = some r → r.prep = some n →
            let block : Nat → Block := fun i => blockOfBytes (sliceBytes v (16 * i) 16)
            asks n .unwrap (fun _ => .unwrap [] ((List.range (v.length / 16 - 1)).map fun i => block (i + 1))) fun key =>
              { fn := .dec, key := key, block := block 0 })) ∧
  (
    ∀ (w : Work) (a : ActionInst) (rest : List ActionInst) (v : Block) (s : State), w.todo = a :: rest →
      let gives : WalkEnd × State → Prop := fun r => resume v w s = r
      let writes : Bytes → Prop := fun x =>
        gives
          (walk rest
            { w with todo := rest, output := w.output ++ [{ tag := a.result, value := x }], size := w.size + 2 + x.length } s)
      let asks : SlotNo → UseKind → Waiting → (Block → CipherStep) → Prop := fun n u waiting step =>
        (∀ key t, requestUse n u s = (.ok key, t) → gives (.waits { w with waiting := waiting } (step key), t)) ∧
        (∀ reason t, requestUse n u s = (.error reason, t) → gives (.fails w reason, t))
      (∀ d, w.waiting = .deriveKey d →
        asks w.keySlot .wrap (.deriveWrap (v ^^^ d)) fun key => { fn := .enc, key := key, block := v ^^^ d }) ∧
      (∀ k, w.waiting = .deriveWrap k →
        gives (.waits { w with waiting := .deriveCheck v } { fn := .enc, key := k, block := 0 }, s)) ∧
      (∀ x, w.waiting = .deriveCheck x → writes (bytesOfBlock x ++ (bytesOfBlock v).take 3)) ∧
      (∀ done more, w.waiting = .unwrap done more →
        asks w.keySlot .wrap (.wrap done more) fun key => { fn := .enc, key := key, block := v }) ∧
      (∀ done, w.waiting = .wrap done [] → writes (done ++ bytesOfBlock v)) ∧
      (∀ done c more r n, w.waiting = .wrap done (c :: more) → s.run w.run = some r → r.prep = some n →
        asks n .unwrap (.unwrap (done ++ bytesOfBlock v) more) fun key => { fn := .dec, key := key, block := c }) ∧
      (∀ j, w.waiting = .outTag j →
        (2 ≤ j.blocks.length →
          let k : TagJob := { j with chain := v, blocks := j.blocks.tail }
          gives (.waits { w with waiting := .outTag k } k.step, s)) ∧
        (j.blocks.length ≤ 1 → writes ((bytesOfBlock v).take 8))))

/-- The result of the engine's step (R92, R93, R95): the walk goes on with it; a discarded result goes to nobody (R96). The model's
choice: the LINE notices of a take come after those of the effect before it (log 41). -/
def Obligations.EngineStepGoesOn : Prop :=
  ∀ (s : State) (c : CipherStep), s.quiet →
    (s.core.work = .engine c true → ∃ t, exec .engineCipherStep s = .next t ∧ SettlesTo s.endStep t) ∧
    (∀ w, s.core.work = .engine c false → s.engine = some w →
      ∃ t, exec .engineCipherStep s = .next t ∧
        match resume c.result w s.endStep with
        | (.waits v step, u) =>
          SettlesTo { u with engine := some v } t ∧ (t.core.work = .engine step false ∨ t.core.engineWaits = some step)
        | (.fails v reason, u) => SettlesTo (engineTake (failRecord v reason u)) t
        | (.completes v, u) => SettlesTo (engineTake (completeRecord v u)) t)

/-- A record completes (R62, R82, R93, R115): its card frame, sealed, joins the reserved line's queue; its position goes OUT with one
more attempt, the line and the time; the first attempt is an issue, a later one a reissue; the engine is IDLE. A record fails (R63,
R95): its line's reservation is released, its position returns to the state it came from, a FAILURE notice names the action and the
reason, and the engine is IDLE; a CLOSING run is then tested (R63, R72; RunEndingOrders says what the test does). The model's choice:
the FAILURE notice carries its reason as a value (log 8) and the action number in one byte (log 33), and is offered before the test
(log 13). -/
def Obligations.RecordLeavesTheEngine : Prop :=
  (
    ∀ (s : State) (w : Work) (r : Run) (p : Position), (s.runs.table.map Run.number).Nodup → r ∈ s.runs.table → r.number = w.run →
      r.position (r.offset w.seq) = some p → p.state = .staged →
      let x := s.line w.line
      let body := be32 w.run.toNat ++ be32 w.seq.toNat ++ [byteOf w.attempt, byteOf w.line.val] ++
        w.output.flatMap fun f => [f.tag, byteOf f.value.length] ++ f.value
      let frame := sealFrame (frameHeader 0x05 s.link.address body.length s.time.millis ++ body)
      let out : Run := { r.setPosition (r.offset w.seq)
          (some { p with
            state := .out, prior := none, attempt := p.attempt + 1, line := some w.line, dispatched := some s.time.millis }) with
        issues := if p.attempt = 0 then r.issues + 1 else r.issues
        reissues := if p.attempt = 0 then r.reissues else r.reissues + 1 }
      completeRecord w s =
        { s with
          engine := none
          dispatch := { s.dispatch with
            lines := s.dispatch.lines.set w.line.val
              { x with transmit := x.transmit ++ [{ run := w.run, seq := w.seq, frame := frame }] } }
          runs := { s.runs with table := s.runs.table.map fun y => if y.number = w.run then out else y } }) ∧
  (
    ∀ (s : State) (w : Work) (reason : FailReason) (r : Run) (p : Position), (s.runs.table.map Run.number).Nodup →
      r ∈ s.runs.table → r.number = w.run → r.position (r.offset w.seq) = some p → p.state = .staged → r.state ≠ .closing →
      let x := s.line w.line
      let action := match w.todo with | [] => 0 | a :: _ => a.action
      let back : Run := r.setPosition (r.offset w.seq)
        (some { p with state := if p.prior = some .spoiled then .spoiled else .opened, prior := none })
      failRecord w reason s =
        offer .failure reason.code (be32 w.run.toNat ++ be32 w.seq.toNat ++ [byteOf action, reason.code])
          { s with
            engine := none
            dispatch := { s.dispatch with lines := s.dispatch.lines.set w.line.val { x with occupied := x.occupied - 1 } }
            runs := { s.runs with table := s.runs.table.map fun y => if y.number = w.run then back else y } }) ∧
  (
    ∀ (s : State) (w : Work) (reason : FailReason) (r : Run) (p : Position), (s.runs.table.map Run.number).Nodup →
      r ∈ s.runs.table → r.number = w.run → r.position (r.offset w.seq) = some p → p.state = .staged → r.state = .closing →
      let x := s.line w.line
      let action := match w.todo with | [] => 0 | a :: _ => a.action
      let back : Run := r.setPosition (r.offset w.seq)
        (some { p with state := if p.prior = some .spoiled then .spoiled else .opened, prior := none })
      failRecord w reason s =
        closeTest w.run
          (offer .failure reason.code (be32 w.run.toNat ++ be32 w.seq.toNat ++ [byteOf action, reason.code])
            { s with
              engine := none
              dispatch := { s.dispatch with lines := s.dispatch.lines.set w.line.val { x with occupied := x.occupied - 1 } }
              runs := { s.runs with table := s.runs.table.map fun y => if y.number = w.run then back else y } }))

/-! ### The Key Store side, answers and notices -/

/-- A Key Store side step that is not the last of its operation (R32, R33): a tag's next step is then presented; a load goes on to its
check value, also after a zeroisation (R42); a discarded step goes to nobody. The last step of an answer's tag puts the answer into
the answer slot (R151); the last step of a notice's tag makes the notice ready in its place (R174). The model's choice: the oldest
unready notice comes first (log 17); after a zeroisation the check value is that of the emptied accumulator, whose value is taken as
0, and the order stays in hand until that step ends (log 29). -/
def Obligations.KeyStoreSideStepsGoOn : Prop :=
  (
    ∀ (s : State) (k : KsStep), s.quietQueue →
      let u := s.endStep
      let gives : State → Prop := fun x => ∃ t, exec .keyStoreSideCipherStep s = .next t ∧ SettlesTo x t
      let handling : OrderInHand → Handling → State := fun h x =>
        { u with order := { u.order with hand := some { h with handling := x } } }
      (s.core.work = .keyStore k true → s.quiet → gives u) ∧
      (s.core.work = .keyStore k false →
        let v := k.step.result
        (∀ h n j, k.user = .order → s.order.hand = some h → h.handling = .comparing n j → 2 ≤ j.blocks.length →
          gives (handling h (.comparing n { j with chain := v, blocks := j.blocks.tail }))) ∧
        (∀ h m j, k.user = .order → s.order.hand = some h → h.handling = .answering m j → 2 ≤ j.blocks.length →
          gives (handling h (.answering m { j with chain := v, blocks := j.blocks.tail }))) ∧
        (∀ h kind slot key wrapped c n zeroised, k.user = .load → s.order.hand = some h →
          h.handling = .loading { kind := kind, stage := .unwrap slot key wrapped, zeroised := zeroised } →
          kind = .component n c true →
          ∃ t, exec .keyStoreSideCipherStep s = .next t ∧
            t.order.hand = some { h with
              handling := .loading
                { kind := kind, stage := .check ((s.slot n).accumulator.getD 0 ^^^ v), zeroised := zeroised } } ∧
            t.store = s.store) ∧
        (∀ h kind slot key wrapped n c check ceiling label zeroised, k.user = .load → s.order.hand = some h →
          h.handling = .loading { kind := kind, stage := .unwrap slot key wrapped, zeroised := zeroised } →
          kind = .whole n c check ceiling label →
          ∃ t, exec .keyStoreSideCipherStep s = .next t ∧
            t.order.hand = some { h with handling := .loading { kind := kind, stage := .check v, zeroised := zeroised } } ∧
            t.store = s.store) ∧
        (∀ before n after j, k.user = .report → s.quiet → s.report.notices = before ++ n :: after →
          (∀ x ∈ before, ∃ tag, x.tag = .ready tag) → n.tag = .computing j → 2 ≤ j.blocks.length →
          gives
            { u with
              report := { u.report with
                notices := before ++ { n with tag := .computing { j with chain := v, blocks := j.blocks.tail } } :: after } }))) ∧
  (
    ∀ s : State,
      let u := s.endStep
      (∀ h m j, s.order.hand = some h → h.handling = .answering m j → s.coreServes .order = true → j.blocks.length ≤ 1 →
        s.quietQueue →
        ∃ t, exec .answerBuilt s = .next t ∧
          SettlesTo
            { u with
              order := { u.order with
                hand := some { h with handling := .answered }
                answer := some (sealFrame (m ++ bytesOfTag (truncateTag s.coreResult))) } } t) ∧
      (∀ before n after j, s.report.notices = before ++ n :: after → (∀ x ∈ before, ∃ tag, x.tag = .ready tag) →
        n.tag = .computing j → s.coreServes .report = true → j.blocks.length ≤ 1 → s.quiet →
        ∃ t, exec .noticeBuilt s = .next t ∧
          SettlesTo
            { u with
              report := { u.report with
                notices := before ++ { n with tag := .ready (truncateTag s.coreResult) } :: after } } t))

/-! ### Timers and long operations -/

/-- The expiries (R14, R149, R170, R171, R186, R187, R188): each takes effect once its deadline is reached, and not before. The
seconds clock counts at 1,000 ticks, on battery too, and not before (R171). At the expiry of the idle timer the unit enters DORMANT
(R25): the copies go, each ASSEMBLING slot becomes EMPTY, its lock kept, with its KEY notice ASSEMBLY LAPSED, and the KEY notice
DORMANT follows. The model's choice: the two rows of the idle timer (log 28), the ascending order of the lapses (log 32), the number
of components in ASSEMBLY LAPSED in one byte (log 33). While a LOAD COMPONENT in hand works on the slot, its deadline does not reach
it (R42). -/
def Obligations.TimersExpire : Prop :=
  (
    ∀ s : State, s.power.valid = true →
      (1000 ≤ s.time.ticks →
        exec .secondsClockAdvance s =
          .next { s with
            time := { s.time with
              seconds := if s.time.seconds.value < 4294967295 then { s.time.seconds with value := s.time.seconds.value + 1 }
                else { s.time.seconds with limit := true }
              ticks := s.time.ticks - 1000 } }) ∧
      (s.time.ticks < 1000 → exec .secondsClockAdvance s = .next s)) ∧
  ∀ s : State, s.power.supply = .main →
    let reached : Word → Prop := fun d => (s.time.millis - d).toNat < 2147483648
    (∀ n h l c last, s.order.hand = some h → h.handling = .loading l → l.kind = .component n c last →
      exec (.assemblyLapse n) s = .next s) ∧
    (∀ (n : SlotNo) (d : Word), (s.slot n).state = .assembling → (s.slot n).deadline = some d →
      (∀ h l c last, s.order.hand = some h → h.handling = .loading l → l.kind ≠ .component n c last) →
      (¬reached d → exec (.assemblyLapse n) s = .next s) ∧
      (reached d → s.quiet →
        ∃ t, exec (.assemblyLapse n) s = .next t ∧
          SettlesTo
            (offer .key 0x02 [byteOf n.val, byteOf ((s.slot n).components.getD []).length]
              (s.setSlot n (Slot.blank (s.slot n).lock))) t)) ∧
    (∀ d, s.order.gate.deadline = some d →
      (reached d → exec .gateLapse s = .next { s with order := { s.order with gate := { grants := [], deadline := none } } }) ∧
      (¬reached d → exec .gateLapse s = .next s)) ∧
    (∀ d, s.power.settling = some d →
      (reached d → exec .settlingExpiry s = .next { s with power := { s.power with settling := none } }) ∧
      (¬reached d → exec .settlingExpiry s = .next s)) ∧
    (∀ m d, s.power.idle = some { minutes := m, deadline := d } →
      (¬reached d → exec .idleMinuteDeadline s = .next s ∧ exec .idleTimerExpiry s = .next s) ∧
      (reached d → 2 ≤ m →
        exec .idleMinuteDeadline s =
          .next { s with power := { s.power with idle := some { minutes := m - 1, deadline := d + 60000 } } }) ∧
      (reached d → m = 1 → s.store.custody = .operational → s.quiet →
        ∃ (lapsing : List SlotNo) (t : State),
          lapsing.Pairwise (fun n m => n.val < m.val) ∧ (∀ n, n ∈ lapsing ↔ (s.slot n).state = .assembling) ∧
          exec .idleTimerExpiry s = .next t ∧ t.store.custody = .dormant ∧ t.power.idle = none ∧
          (∀ n, t.slot n = if (s.slot n).state = .assembling then Slot.blank (s.slot n).lock else s.slot n) ∧
          t.runs = s.runs ∧ t.dispatch = s.dispatch ∧ t.order = s.order ∧ t.tamper = s.tamper ∧
          let dormant : State :=
            { s with
              store := { s.store with custody := .dormant, working := Vector.replicate 64 false }
              power := { s.power with idle := none } }
          let lapse : State → SlotNo → State := fun u n =>
            offer .key 0x02 [byteOf n.val, byteOf ((s.slot n).components.getD []).length]
              (u.setSlot n (Slot.blank (s.slot n).lock))
          SettlesTo (offer .key 0x07 [] (lapsing.foldl lapse dormant)) t))

/-- A verify step (R24): a visited slot whose check value differs becomes DAMAGED, holds the runs that name it and is counted; the
verify goes on at the next ACTIVE or RETIRED slot or completes with a KEY notice VERIFIED, and after a WAKE the unit is OPERATIONAL
again. The end of a scrub pass (R6, R18, R27): a KEY notice ERASED or ZEROISED, and the store is BUSY no more unless a verify waited
for it, which then begins at the first ACTIVE or RETIRED slot, or completes with nothing to visit (R6, R183). The model's choice: the
moment and the cause byte of VERIFIED (log 8, log 13), a waiting verify as BUSY (log 12). The model's choice, too: the LINE notices of
a take come after those of the effect before it (log 41). -/
def Obligations.LongOperationsComplete : Prop :=
  (
    ∀ (s : State) (v : Verify), s.store.verify = some v → s.coreServes .verify = true → s.quiet →
      let agrees := (s.slot v.slot).check = some (checkOfBlock s.coreResult)
      let u := s.endStep
      let damaged := v.damaged + (if agrees then 0 else 1)
      let x : State :=
        if agrees then u
        else
          lineNotices u
            ((offer .key 0x05 [byteOf v.slot.val] (u.setSlot v.slot { s.slot v.slot with state := .damaged })).reportUnusable v.slot)
      let visited : SlotNo → Prop := fun n => (s.slot n).state = .active ∨ (s.slot n).state = .retired
      let gives : State → Prop := fun y => ∃ t, exec .slotVerifyStep s = .next t ∧ SettlesTo (engineTake y) t
      (∀ n : SlotNo, v.slot.val < n.val → visited n → (∀ m : SlotNo, v.slot.val < m.val → m.val < n.val → ¬visited m) →
        gives { x with store := { x.store with verify := some { cause := v.cause, slot := n, damaged := damaged } } }) ∧
      ((∀ m : SlotNo, v.slot.val < m.val → ¬visited m) →
        let y : State := { x with store := { x.store with verify := none } }
        (v.cause = .restore → gives (offer .key 0x06 [0x01, byteOf damaged] y)) ∧
        (v.cause = .wake →
          gives (offer .key 0x06 [0x02, byteOf damaged] (((y.setCustody .operational).readyCopies).startIdle))))) ∧
  (
    ∀ s : State, s.quiet → s.store.verifyWaits = false →
      let u : State := { s with store := { s.store with scrub := none } }
      (∀ n, s.store.scrub = some (.erase n) →
        ∃ t, exec .eraseScrubComplete s = .next t ∧ SettlesTo (offer .key 0x03 [byteOf n.val] u) t) ∧
      (s.store.scrub = some .zeroise → ∃ t, exec .zeroiseScrubComplete s = .next t ∧ SettlesTo (offer .key 0x08 [] u) t)) ∧
  (
    ∀ (s : State) (i : Instr) (variant : Byte) (values : Bytes), s.quiet → s.store.verifyWaits = true →
      (∃ n, s.store.scrub = some (.erase n) ∧ i = .eraseScrubComplete ∧ variant = 0x03 ∧ values = [byteOf n.val]) ∨
        (s.store.scrub = some .zeroise ∧ i = .zeroiseScrubComplete ∧ variant = 0x08 ∧ values = []) →
      let visited : SlotNo → Prop := fun n => (s.slot n).state = .active ∨ (s.slot n).state = .retired
      let told := offer .key variant values { s with store := { s.store with scrub := none } }
      let gives : State → Prop := fun u => ∃ t, exec i s = .next t ∧ SettlesTo u t
      (∀ n : SlotNo, visited n → (∀ m : SlotNo, m.val < n.val → ¬visited m) →
        gives { told with
          store := { told.store with verifyWaits := false, verify := some { cause := .restore, slot := n, damaged := 0 } } }) ∧
      ((∀ m : SlotNo, ¬visited m) →
        gives
          (offer .key 0x06 [0x01, 0x00] { told with store := { told.store with verifyWaits := false, verify := none } })))

/-- The sensors (R154, R155, R156, R158, R162): an input that becomes active starts the qualification of an enabled IDLE sensor that
is not held off, or trips it at once with qualification 0; an input that returns ends it, and releases a TRIPPED sensor with its cause
of suspension; a qualification that runs out trips the sensor; the window's end closes it, and an S0 that is enabled, active and IDLE
then begins to qualify or trips at once. The model's choice: the take after an input's return, at its event (log 15). -/
def Obligations.SensorsQualifyAndTrip : Prop :=
  ∀ (s : State) (i : SensorNo), s.power.valid = true → s.quiet →
    let x := s.sensor i
    let gives : Instr → State → Prop := fun c u => ∃ t, exec c s = .next t ∧ SettlesTo u t
    let on := { x with input := decide (x.polarity = .activeHigh) }
    let off := { x with input := decide (x.polarity = .activeLow) }
    let armed := x.enable = true ∧ x.status = .idle ∧ ¬(i = 0 ∧ s.tamper.window ≠ none)
    (x.active = false →
      (¬armed → gives (.sensorInputActive i) (s.setSensor i on)) ∧
      (armed → x.qualification ≠ 0 →
        gives (.sensorInputActive i) (s.setSensor i { on with status := .qualifying, timer := some x.qualification })) ∧
      (armed → x.qualification = 0 → gives (.sensorInputActive i) (trip i (s.setSensor i on)))) ∧
    (x.active = true →
      (x.status = .idle ∨ x.status = .latched → gives (.sensorInputInactive i) (engineTake (s.setSensor i off))) ∧
      (x.status = .qualifying →
        gives (.sensorInputInactive i) (engineTake (s.setSensor i { off with status := .idle, timer := none }))) ∧
      (x.status = .tripped →
        gives (.sensorInputInactive i)
          (engineTake ((s.setSensor i { off with status := .idle, timer := none }).setCause i false)))) ∧
    (x.status = .qualifying → x.timer = some 0 → gives (.qualificationExpiry i) (trip i s)) ∧
    (s.tamper.window = some 0 →
      let closed : State := { s with tamper := { s.tamper with window := none } }
      ((s.sensor 0).enable = false ∨ (s.sensor 0).active = false ∨ (s.sensor 0).status ≠ .idle → gives .windowEnd closed) ∧
      ((s.sensor 0).enable = true → (s.sensor 0).active = true → (s.sensor 0).status = .idle →
        ((s.sensor 0).qualification ≠ 0 →
          gives .windowEnd
            (closed.setSensor 0 { s.sensor 0 with status := .qualifying, timer := some (s.sensor 0).qualification })) ∧
        ((s.sensor 0).qualification = 0 → gives .windowEnd (trip 0 closed))))

/-- What a trip does (R156, R157): the entry in the tamper record, or one more overflow, the event count, on battery the battery-trip
count (R167), the emptied gate, and then, before the action, the TAMPER notice, which main power off leaves out (R172). With SUSPEND
the sensor's cause joins the suspend set; with ZEROISE every slot becomes EMPTY and the unit ZEROISED, on battery with the
battery-zeroisation mark (R27, R181), the runs that named a key gain KEY (R46), an order not yet decided awaits an untagged decision
and a load in hand loses its results (R42, R140); in ZEROISED the scrub begins anew (R28). A record in the engine is aborted: its step
is discarded and it fails ABORTED (R96), as RecordLeavesTheEngine says. The model's choice: the notice's flag byte (log 35), the order
of a zeroisation's effects (log 13), no KEY on a run in CLOSING, which R27's own words would give (R46; log 21), no
battery-zeroisation mark in ZEROISED (log 29). -/
def Obligations.TripActs : Prop :=
  (
    ∀ (s : State) (i : SensorNo),
      let x := s.sensor i
      let t := trip i s
      let entry : TamperEntry :=
        { source := .sensor i, seconds := s.time.seconds.value,
          millis := if s.power.supply = .main then some (s.time.millis.setWidth 16) else none, action := x.action,
          before := s.store.custody }
      t.tamper.record = (if s.tamper.record.length < 8 then s.tamper.record ++ [entry] else s.tamper.record) ∧
      t.tamper.overflow = (if s.tamper.record.length < 8 then s.tamper.overflow else bumpCounter 255 s.tamper.overflow) ∧
      t.tamper.events = bumpCounter 255 s.tamper.events ∧ t.order.gate.grants = [] ∧ t.order.gate.deadline = none ∧
      (x.action = .suspend ∨ s.store.custody ≠ .zeroised → t.engine = none) ∧ t.time = s.time ∧ t.link = s.link ∧
      t.recipes = s.recipes ∧ t.runs.staging = s.runs.staging ∧
      (∀ j, j ≠ i → t.sensor j = s.sensor j) ∧
      (x.action = .suspend →
        t.sensor i = { x with status := (if x.mode = .transient then .tripped else .latched), timer := none } ∧
        t.suspended = true ∧ t.store = { s.store with suspend := s.store.suspend.set i.val true }) ∧
      (x.action = .zeroise → t.sensor i = { x with status := .latched, timer := none } ∧ t.store.custody = .zeroised ∧
        t.store.scrub = some .zeroise ∧
        (s.store.custody ≠ .zeroised →
          t.store.slots = Vector.replicate 64 (Slot.blank false) ∧ t.store.lastOrder = 0 ∧ t.suspended = false ∧
          t.store.verify = none ∧ t.power.idle = none))) ∧
  (
    ∀ (s : State) (i : SensorNo),
      let x := s.sensor i
      let main := decide (s.power.supply = .main)
      let room := decide (s.tamper.record.length < 8)
      let before : State :=
        { s with
          tamper := { s.tamper with
            record :=
              if room then
                s.tamper.record ++
                  [{ source := .sensor i, seconds := s.time.seconds.value,
                     millis := if main then some (s.time.millis.setWidth 16) else none, action := x.action,
                     before := s.store.custody }]
              else s.tamper.record
            overflow := if room then s.tamper.overflow else bumpCounter 255 s.tamper.overflow
            events := bumpCounter 255 s.tamper.events
            batteryTrips := if main then s.tamper.batteryTrips else bumpCounter 255 s.tamper.batteryTrips }
          order := { s.order with gate := { grants := [], deadline := none } } }
      let told :=
        offer .tamper (byteOf i.val)
          ([byteOf i.val, x.action.code] ++ be32 s.time.seconds.value ++ be16 (s.time.millis.toNat % 65536) ++
            [s.store.custody.code, if room then 0x01 else 0x00]) before
      let aborts : State → State := fun u =>
        match s.engine with
        | none => u
        | some w =>
          failRecord w .aborted
            { u with
              core := { u.core with
                engineWaits := none
                work := match u.core.work with | .engine c _ => .engine c true | work => work } }
      let suspended : Sensor := { x with status := (if x.mode = .transient then .tripped else .latched), timer := none }
      let latched : Sensor := { x with status := .latched, timer := none }
      (x.action = .suspend →
        trip i s =
          aborts
            { told with
              tamper := { told.tamper with sensors := s.tamper.sensors.set i.val suspended }
              store := { s.store with suspend := s.store.suspend.set i.val true } }) ∧
      (x.action = .zeroise → s.store.custody = .zeroised →
        trip i s =
          { told with
            tamper := { told.tamper with sensors := s.tamper.sensors.set i.val latched }
            store := { s.store with scrub := some .zeroise } }) ∧
      (x.action = .zeroise → s.store.custody ≠ .zeroised →
        let lost : SlotNo → Prop := fun n => 7 ≤ n.val ∧ (s.slot n).state ≠ .empty
        let hit : Run → Prop := fun r =>
          (lost r.master ∨ ∃ n, r.prep = some n ∧ lost n) ∧ (r.state = .defined ∨ r.state = .live ∨ r.state = .held)
        let given : KsUser → Prop := fun u =>
          u = .verify ∨ (u = .order ∧ ∃ h n j, s.order.hand = some h ∧ h.handling = .comparing n j) ∨
            (u = .load ∧ ∃ h key, s.order.hand = some h ∧ h.handling = .checking key)
        ∃ (table : List Run) (core : CipherCore) (hand : Option OrderInHand) (v : State),
          List.Forall₂
            (fun r y =>
              (hit r →
                y = { r with holds := { r.holds with key := true }, state := if r.state = .live then .held else r.state }) ∧
              (¬hit r → y = r)) s.runs.table table ∧
          core.engineWaits = s.core.engineWaits ∧ core.queue.Sublist s.core.queue ∧
          (∀ k, k ∈ core.queue ↔ k ∈ s.core.queue ∧ ¬given k.user) ∧
          (∀ k d, s.core.work = .keyStore k d →
            (given k.user → core.work = .keyStore k true) ∧ (¬given k.user → core.work = .keyStore k d)) ∧
          ((∀ k d, s.core.work ≠ .keyStore k d) → core.work = s.core.work) ∧
          (s.order.hand = none → hand = none) ∧
          (∀ h, s.order.hand = some h → hand = some { h with
            handling :=
              match h.handling with
              | .loading l => .loading { l with zeroised := true }
              | .answering m j => .answering m j
              | .answered => .answered
              | _ => .untagged }) ∧
          v = { told with
            tamper := { told.tamper with sensors := s.tamper.sensors.set i.val latched }
            store := { s.store with
              slots := Vector.replicate 64 (Slot.blank false), custody := .zeroised, lastOrder := 0,
              suspend := Vector.replicate 6 false, scrub := some .zeroise, verify := none, working := Vector.replicate 64 false }
            power := { s.power with idle := none, batteryZeroised := if main then s.power.batteryZeroised else true }
            order := { told.order with hand := hand }
            core := core
            runs := { s.runs with table := table } } ∧
          trip i s = aborts (lineNotices s v)))

/-! ### Power -/

/-- Loss of main power (R180, R181): the battery domain keeps the store, the unit's address, the monitor and the seconds; the main
domain ceases and stands at the values the next restore gives it. Loss of the battery while main power is off loses the rest (R180).
Return of main power, and a warm reset (R180, R183, R184, R186): the main domain at its reset values, the battery domain kept; the
restore starts the settling inhibit of 250 ms, a warm reset keeps what is left of one; assemblies lapse; an OPERATIONAL unit has the
working copies of its usable keys; a restore verifies the slots from the first ACTIVE or RETIRED one, after a scrub in progress; a
warm reset begins a verify in progress again with its cause, and begins none of its own (R30); the POWER notice is the first of the
queue. The main domain's reset values: the lines with no key, credit limit 2, nothing in use or sent, OFF, LINK by the level of the
port, the groups empty and production OFF (R121); both masks, and no notice lost while at most 14 assemblies lapse (R173, R175, R178);
the queues, transmitters and flags of the record ports and the source served (R136); no order, answer or grant (R137, R144); no step
but the verify's and the notices' (R33); the idle limit 60 (R187). The model's choice: what a lost supply leaves in State, and the
waiting verify (log 12, log 27); each WARM_RESET is an assertion of the input with the negation before it implied (log 38). -/
def Obligations.SupplyIsLostAndReturns : Prop :=
  (
    ∀ s : State,
      (s.power.supply = .main →
        ∃ t, exec .mainLoss s = .next t ∧ t.power.supply = .battery ∧ t.power.lossTime = some s.time.seconds.value ∧
          t.power.batteryZeroised = s.power.batteryZeroised ∧ t.power.valid = s.power.valid ∧
          (∀ n, t.slot n = { s.slot n with deadline := none }) ∧ t.store.custody = s.store.custody ∧
          t.store.lastOrder = s.store.lastOrder ∧ t.store.suspend = s.store.suspend ∧ t.store.scrub = s.store.scrub ∧
          t.link.address = s.link.address ∧ t.link.chainEnd = s.link.chainEnd ∧ t.tamper = s.tamper ∧
          t.time.seconds = s.time.seconds ∧ t.runs.table = [] ∧ t.runs.staging = [] ∧ t.engine = none ∧ t.order.hand = none ∧
          t.order.gate.grants = [] ∧ t.report.notices = [] ∧ t.core.work = .idle ∧ t.core.queue = [] ∧ t.alarmOutput = false) ∧
      (s.power.supply = .battery → s.power.valid = true →
        ∃ t, exec .batteryLoss s = .next t ∧ t.power.supply = .battery ∧ t.power.valid = false ∧
          (∀ n, t.slot n = Slot.blank false) ∧ t.store.custody = .factory ∧ t.tamper.record = [] ∧ t.time.seconds = .zero)) ∧
  (
    ∀ s : State,
      let common : State → Prop := fun t =>
        t.power.supply = .main ∧ t.store.custody = s.store.custody ∧ t.store.lastOrder = s.store.lastOrder ∧
        t.store.suspend = s.store.suspend ∧ t.store.scrub = s.store.scrub ∧ t.link.address = s.link.address ∧
        t.link.chainEnd = s.link.chainEnd ∧
        t.time.millis = 0 ∧ t.time.seconds = s.time.seconds ∧ t.runs.table = [] ∧ t.runs.staging = [] ∧ t.engine = none ∧
        t.order.hand = none ∧ t.order.gate.grants = [] ∧ (∀ r, t.recipe r = none) ∧
        (∀ l, t.line l =
          { keySlot := none, limit := 2, occupied := 0, barred := false, faults := { link := !(s.line l).linkUp, lapses := false },
            consecutive := 0, lapses := ⟨0, false⟩, strays := ⟨0, false⟩, rejects := ⟨0, false⟩, late := ⟨0, false⟩,
            flags := ⟨false, false, false⟩, transmit := [], begun := false, sending := false, linkUp := (s.line l).linkUp }) ∧
        (∀ l, t.reported l = .off) ∧ (∀ g, t.group g = 0) ∧ t.dispatch.production = false ∧
        t.report.noticeMask = 0x01FF ∧ t.report.alarmMask = 0x657F ∧
        ((List.finRange 64).countP (fun n => decide ((s.slot n).state = .assembling)) ≤ 14 → t.report.lost = ⟨0, false⟩) ∧
        t.link.onwardQueue = [] ∧ t.link.relayQueue = [] ∧ t.link.upTx = none ∧ t.link.onTx = none ∧
        t.link.upFlags = ⟨false, false, false, false, false, false⟩ ∧ t.link.onFlags = ⟨false, false, false⟩ ∧
        t.link.served = .relay ∧ t.link.upLink = s.link.upLink ∧ t.link.onLink = s.link.onLink ∧
        t.order.answer = none ∧ t.order.gate.deadline = none ∧ t.core.engineWaits = none ∧
        (∀ k ∈ t.core.queue, k.user = .verify ∨ k.user = .report) ∧
        (t.core.work = .idle ∨ ∃ k, t.core.work = .keyStore k false ∧ (k.user = .verify ∨ k.user = .report)) ∧
        t.power.idleLimit = 60 ∧ t.power.valid = s.power.valid ∧
        (t.alarmOutput = true ↔ t.summary &&& 0x9A80 ≠ 0) ∧
        (∀ n, t.slot n = if (s.slot n).state = .assembling then Slot.blank (s.slot n).lock else { s.slot n with deadline := none }) ∧
        (∀ n : SlotNo, t.store.working[n.val] = true ↔
          t.store.custody = .operational ∧ (t.slot n).state = .active ∧
            ((t.slot n).ceiling = 0 ∨ (t.slot n).uses.value < (t.slot n).ceiling)) ∧
        (∃ n rest, t.report.notices = n :: rest ∧ (sliceBytes n.message 8 1) = [0x09]) ∧
        t.power.idle = if s.store.custody = .operational then some { minutes := 60, deadline := 60000 } else none
      let visits : SlotNo → Prop := fun n => (s.slot n).state = .active ∨ (s.slot n).state = .retired
      let first : SlotNo → Prop := fun n => visits n ∧ ∀ m : SlotNo, m.val < n.val → ¬visits m
      (s.power.supply = .battery → s.power.valid = true →
        ∃ t, exec .mainRestore s = .next t ∧ common t ∧ t.power.settling = some 250 ∧ t.power.lossTime = none ∧
          t.power.batteryZeroised = false ∧ t.tamper = { s.tamper with batteryTrips := { value := 0, limit := false } } ∧
          (s.store.scrub ≠ none → t.store.verifyWaits = true ∧ t.store.verify = none) ∧
          (s.store.scrub = none → t.store.verifyWaits = false ∧
            (∀ n, first n → t.store.verify = some { cause := .restore, slot := n, damaged := 0 }) ∧
            ((∀ n, ¬visits n) → t.store.verify = none))) ∧
      (s.power.supply = .main → (∀ v, s.store.verify = some v → (s.slot v.slot).visited = true) →
        ∃ t, exec .warmReset s = .next t ∧ common t ∧ t.power.lossTime = s.power.lossTime ∧ t.tamper = s.tamper ∧
          (t.power.settling = s.power.settling.map fun d => d - s.time.millis) ∧ t.store.verifyWaits = s.store.verifyWaits ∧
          (s.store.verify = none → t.store.verify = none) ∧
          (∀ v n, s.store.verify = some v → first n → t.store.verify = some { cause := v.cause, slot := n, damaged := 0 })))
end

