-- ==== Sys2Proof/Laws/State.lean ====
section
/-! SUPPORT. One lemma for each field that an update of the state leaves as it is, and what each update does to the record it
replaces, so that no later proof unfolds a record update. -/

namespace Sys2Proof.Machine

/-! ### Ops -/

@[simp] theorem setSlot_core (s : State) (n : SlotNo) (k : Slot) : (s.setSlot n k).core = s.core := rfl
@[simp] theorem setSlot_runs (s : State) (n : SlotNo) (k : Slot) : (s.setSlot n k).runs = s.runs := rfl
@[simp] theorem setSlot_recipes (s : State) (n : SlotNo) (k : Slot) : (s.setSlot n k).recipes = s.recipes := rfl
@[simp] theorem setSlot_engine (s : State) (n : SlotNo) (k : Slot) : (s.setSlot n k).engine = s.engine := rfl
@[simp] theorem setSlot_dispatch (s : State) (n : SlotNo) (k : Slot) : (s.setSlot n k).dispatch = s.dispatch := rfl
@[simp] theorem setSlot_link (s : State) (n : SlotNo) (k : Slot) : (s.setSlot n k).link = s.link := rfl
@[simp] theorem setSlot_order (s : State) (n : SlotNo) (k : Slot) : (s.setSlot n k).order = s.order := rfl
@[simp] theorem setSlot_tamper (s : State) (n : SlotNo) (k : Slot) : (s.setSlot n k).tamper = s.tamper := rfl
@[simp] theorem setSlot_report (s : State) (n : SlotNo) (k : Slot) : (s.setSlot n k).report = s.report := rfl
@[simp] theorem setSlot_time (s : State) (n : SlotNo) (k : Slot) : (s.setSlot n k).time = s.time := rfl
@[simp] theorem setSlot_power (s : State) (n : SlotNo) (k : Slot) : (s.setSlot n k).power = s.power := rfl
@[simp] theorem setSlot_free (s : State) (n : SlotNo) (k : Slot) : (s.setSlot n k).free = s.free := rfl
@[simp] theorem setSlot_pending (s : State) (n : SlotNo) (k : Slot) : (s.setSlot n k).pending = s.pending := rfl

@[simp] theorem emptySlot_core (s : State) (n : SlotNo) : (s.emptySlot n).core = s.core := rfl
@[simp] theorem emptySlot_runs (s : State) (n : SlotNo) : (s.emptySlot n).runs = s.runs := rfl
@[simp] theorem emptySlot_recipes (s : State) (n : SlotNo) : (s.emptySlot n).recipes = s.recipes := rfl
@[simp] theorem emptySlot_engine (s : State) (n : SlotNo) : (s.emptySlot n).engine = s.engine := rfl
@[simp] theorem emptySlot_dispatch (s : State) (n : SlotNo) : (s.emptySlot n).dispatch = s.dispatch := rfl
@[simp] theorem emptySlot_link (s : State) (n : SlotNo) : (s.emptySlot n).link = s.link := rfl
@[simp] theorem emptySlot_order (s : State) (n : SlotNo) : (s.emptySlot n).order = s.order := rfl
@[simp] theorem emptySlot_tamper (s : State) (n : SlotNo) : (s.emptySlot n).tamper = s.tamper := rfl
@[simp] theorem emptySlot_report (s : State) (n : SlotNo) : (s.emptySlot n).report = s.report := rfl
@[simp] theorem emptySlot_time (s : State) (n : SlotNo) : (s.emptySlot n).time = s.time := rfl
@[simp] theorem emptySlot_power (s : State) (n : SlotNo) : (s.emptySlot n).power = s.power := rfl
@[simp] theorem emptySlot_free (s : State) (n : SlotNo) : (s.emptySlot n).free = s.free := rfl
@[simp] theorem emptySlot_pending (s : State) (n : SlotNo) : (s.emptySlot n).pending = s.pending := rfl

@[simp] theorem setLine_store (s : State) (l : LineNo) (x : Line) : (s.setLine l x).store = s.store := rfl
@[simp] theorem setLine_core (s : State) (l : LineNo) (x : Line) : (s.setLine l x).core = s.core := rfl
@[simp] theorem setLine_runs (s : State) (l : LineNo) (x : Line) : (s.setLine l x).runs = s.runs := rfl
@[simp] theorem setLine_recipes (s : State) (l : LineNo) (x : Line) : (s.setLine l x).recipes = s.recipes := rfl
@[simp] theorem setLine_engine (s : State) (l : LineNo) (x : Line) : (s.setLine l x).engine = s.engine := rfl
@[simp] theorem setLine_link (s : State) (l : LineNo) (x : Line) : (s.setLine l x).link = s.link := rfl
@[simp] theorem setLine_order (s : State) (l : LineNo) (x : Line) : (s.setLine l x).order = s.order := rfl
@[simp] theorem setLine_tamper (s : State) (l : LineNo) (x : Line) : (s.setLine l x).tamper = s.tamper := rfl
@[simp] theorem setLine_report (s : State) (l : LineNo) (x : Line) : (s.setLine l x).report = s.report := rfl
@[simp] theorem setLine_time (s : State) (l : LineNo) (x : Line) : (s.setLine l x).time = s.time := rfl
@[simp] theorem setLine_power (s : State) (l : LineNo) (x : Line) : (s.setLine l x).power = s.power := rfl
@[simp] theorem setLine_free (s : State) (l : LineNo) (x : Line) : (s.setLine l x).free = s.free := rfl
@[simp] theorem setLine_pending (s : State) (l : LineNo) (x : Line) : (s.setLine l x).pending = s.pending := rfl

@[simp] theorem setSensor_store (s : State) (i : SensorNo) (x : Sensor) : (s.setSensor i x).store = s.store := rfl
@[simp] theorem setSensor_core (s : State) (i : SensorNo) (x : Sensor) : (s.setSensor i x).core = s.core := rfl
@[simp] theorem setSensor_runs (s : State) (i : SensorNo) (x : Sensor) : (s.setSensor i x).runs = s.runs := rfl
@[simp] theorem setSensor_recipes (s : State) (i : SensorNo) (x : Sensor) : (s.setSensor i x).recipes = s.recipes := rfl
@[simp] theorem setSensor_engine (s : State) (i : SensorNo) (x : Sensor) : (s.setSensor i x).engine = s.engine := rfl
@[simp] theorem setSensor_dispatch (s : State) (i : SensorNo) (x : Sensor) : (s.setSensor i x).dispatch = s.dispatch := rfl
@[simp] theorem setSensor_link (s : State) (i : SensorNo) (x : Sensor) : (s.setSensor i x).link = s.link := rfl
@[simp] theorem setSensor_order (s : State) (i : SensorNo) (x : Sensor) : (s.setSensor i x).order = s.order := rfl
@[simp] theorem setSensor_report (s : State) (i : SensorNo) (x : Sensor) : (s.setSensor i x).report = s.report := rfl
@[simp] theorem setSensor_time (s : State) (i : SensorNo) (x : Sensor) : (s.setSensor i x).time = s.time := rfl
@[simp] theorem setSensor_power (s : State) (i : SensorNo) (x : Sensor) : (s.setSensor i x).power = s.power := rfl
@[simp] theorem setSensor_free (s : State) (i : SensorNo) (x : Sensor) : (s.setSensor i x).free = s.free := rfl
@[simp] theorem setSensor_pending (s : State) (i : SensorNo) (x : Sensor) : (s.setSensor i x).pending = s.pending := rfl

@[simp] theorem updateRun_store (s : State) (n : Word) (f : Run → Run) : (s.updateRun n f).store = s.store := rfl
@[simp] theorem updateRun_core (s : State) (n : Word) (f : Run → Run) : (s.updateRun n f).core = s.core := rfl
@[simp] theorem updateRun_recipes (s : State) (n : Word) (f : Run → Run) : (s.updateRun n f).recipes = s.recipes := rfl
@[simp] theorem updateRun_engine (s : State) (n : Word) (f : Run → Run) : (s.updateRun n f).engine = s.engine := rfl
@[simp] theorem updateRun_dispatch (s : State) (n : Word) (f : Run → Run) : (s.updateRun n f).dispatch = s.dispatch := rfl
@[simp] theorem updateRun_link (s : State) (n : Word) (f : Run → Run) : (s.updateRun n f).link = s.link := rfl
@[simp] theorem updateRun_order (s : State) (n : Word) (f : Run → Run) : (s.updateRun n f).order = s.order := rfl
@[simp] theorem updateRun_tamper (s : State) (n : Word) (f : Run → Run) : (s.updateRun n f).tamper = s.tamper := rfl
@[simp] theorem updateRun_report (s : State) (n : Word) (f : Run → Run) : (s.updateRun n f).report = s.report := rfl
@[simp] theorem updateRun_time (s : State) (n : Word) (f : Run → Run) : (s.updateRun n f).time = s.time := rfl
@[simp] theorem updateRun_power (s : State) (n : Word) (f : Run → Run) : (s.updateRun n f).power = s.power := rfl
@[simp] theorem updateRun_free (s : State) (n : Word) (f : Run → Run) : (s.updateRun n f).free = s.free := rfl
@[simp] theorem updateRun_pending (s : State) (n : Word) (f : Run → Run) : (s.updateRun n f).pending = s.pending := rfl

@[simp] theorem setCause_core (s : State) (i : SensorNo) (b : Bool) : (s.setCause i b).core = s.core := rfl
@[simp] theorem setCause_runs (s : State) (i : SensorNo) (b : Bool) : (s.setCause i b).runs = s.runs := rfl
@[simp] theorem setCause_recipes (s : State) (i : SensorNo) (b : Bool) : (s.setCause i b).recipes = s.recipes := rfl
@[simp] theorem setCause_engine (s : State) (i : SensorNo) (b : Bool) : (s.setCause i b).engine = s.engine := rfl
@[simp] theorem setCause_dispatch (s : State) (i : SensorNo) (b : Bool) : (s.setCause i b).dispatch = s.dispatch := rfl
@[simp] theorem setCause_link (s : State) (i : SensorNo) (b : Bool) : (s.setCause i b).link = s.link := rfl
@[simp] theorem setCause_order (s : State) (i : SensorNo) (b : Bool) : (s.setCause i b).order = s.order := rfl
@[simp] theorem setCause_tamper (s : State) (i : SensorNo) (b : Bool) : (s.setCause i b).tamper = s.tamper := rfl
@[simp] theorem setCause_report (s : State) (i : SensorNo) (b : Bool) : (s.setCause i b).report = s.report := rfl
@[simp] theorem setCause_time (s : State) (i : SensorNo) (b : Bool) : (s.setCause i b).time = s.time := rfl
@[simp] theorem setCause_power (s : State) (i : SensorNo) (b : Bool) : (s.setCause i b).power = s.power := rfl
@[simp] theorem setCause_free (s : State) (i : SensorNo) (b : Bool) : (s.setCause i b).free = s.free := rfl
@[simp] theorem setCause_pending (s : State) (i : SensorNo) (b : Bool) : (s.setCause i b).pending = s.pending := rfl

@[simp] theorem tookChoices_store (s : State) (k : Nat) : (s.tookChoices k).store = s.store := rfl
@[simp] theorem tookChoices_core (s : State) (k : Nat) : (s.tookChoices k).core = s.core := rfl
@[simp] theorem tookChoices_runs (s : State) (k : Nat) : (s.tookChoices k).runs = s.runs := rfl
@[simp] theorem tookChoices_recipes (s : State) (k : Nat) : (s.tookChoices k).recipes = s.recipes := rfl
@[simp] theorem tookChoices_engine (s : State) (k : Nat) : (s.tookChoices k).engine = s.engine := rfl
@[simp] theorem tookChoices_dispatch (s : State) (k : Nat) : (s.tookChoices k).dispatch = s.dispatch := rfl
@[simp] theorem tookChoices_link (s : State) (k : Nat) : (s.tookChoices k).link = s.link := rfl
@[simp] theorem tookChoices_order (s : State) (k : Nat) : (s.tookChoices k).order = s.order := rfl
@[simp] theorem tookChoices_tamper (s : State) (k : Nat) : (s.tookChoices k).tamper = s.tamper := rfl
@[simp] theorem tookChoices_report (s : State) (k : Nat) : (s.tookChoices k).report = s.report := rfl
@[simp] theorem tookChoices_time (s : State) (k : Nat) : (s.tookChoices k).time = s.time := rfl
@[simp] theorem tookChoices_power (s : State) (k : Nat) : (s.tookChoices k).power = s.power := rfl
@[simp] theorem tookChoices_pending (s : State) (k : Nat) : (s.tookChoices k).pending = s.pending := rfl

@[simp] theorem emptyGate_store (s : State) : (s.emptyGate).store = s.store := rfl
@[simp] theorem emptyGate_core (s : State) : (s.emptyGate).core = s.core := rfl
@[simp] theorem emptyGate_runs (s : State) : (s.emptyGate).runs = s.runs := rfl
@[simp] theorem emptyGate_recipes (s : State) : (s.emptyGate).recipes = s.recipes := rfl
@[simp] theorem emptyGate_engine (s : State) : (s.emptyGate).engine = s.engine := rfl
@[simp] theorem emptyGate_dispatch (s : State) : (s.emptyGate).dispatch = s.dispatch := rfl
@[simp] theorem emptyGate_link (s : State) : (s.emptyGate).link = s.link := rfl
@[simp] theorem emptyGate_tamper (s : State) : (s.emptyGate).tamper = s.tamper := rfl
@[simp] theorem emptyGate_report (s : State) : (s.emptyGate).report = s.report := rfl
@[simp] theorem emptyGate_time (s : State) : (s.emptyGate).time = s.time := rfl
@[simp] theorem emptyGate_power (s : State) : (s.emptyGate).power = s.power := rfl
@[simp] theorem emptyGate_free (s : State) : (s.emptyGate).free = s.free := rfl
@[simp] theorem emptyGate_pending (s : State) : (s.emptyGate).pending = s.pending := rfl

@[simp] theorem setCustody_core (s : State) (c : Custody) : (s.setCustody c).core = s.core := rfl
@[simp] theorem setCustody_runs (s : State) (c : Custody) : (s.setCustody c).runs = s.runs := rfl
@[simp] theorem setCustody_recipes (s : State) (c : Custody) : (s.setCustody c).recipes = s.recipes := rfl
@[simp] theorem setCustody_engine (s : State) (c : Custody) : (s.setCustody c).engine = s.engine := rfl
@[simp] theorem setCustody_dispatch (s : State) (c : Custody) : (s.setCustody c).dispatch = s.dispatch := rfl
@[simp] theorem setCustody_link (s : State) (c : Custody) : (s.setCustody c).link = s.link := rfl
@[simp] theorem setCustody_order (s : State) (c : Custody) : (s.setCustody c).order = s.order := rfl
@[simp] theorem setCustody_tamper (s : State) (c : Custody) : (s.setCustody c).tamper = s.tamper := rfl
@[simp] theorem setCustody_report (s : State) (c : Custody) : (s.setCustody c).report = s.report := rfl
@[simp] theorem setCustody_time (s : State) (c : Custody) : (s.setCustody c).time = s.time := rfl
@[simp] theorem setCustody_free (s : State) (c : Custody) : (s.setCustody c).free = s.free := rfl
@[simp] theorem setCustody_pending (s : State) (c : Custody) : (s.setCustody c).pending = s.pending := rfl

@[simp] theorem readyCopies_core (s : State) : (s.readyCopies).core = s.core := rfl
@[simp] theorem readyCopies_runs (s : State) : (s.readyCopies).runs = s.runs := rfl
@[simp] theorem readyCopies_recipes (s : State) : (s.readyCopies).recipes = s.recipes := rfl
@[simp] theorem readyCopies_engine (s : State) : (s.readyCopies).engine = s.engine := rfl
@[simp] theorem readyCopies_dispatch (s : State) : (s.readyCopies).dispatch = s.dispatch := rfl
@[simp] theorem readyCopies_link (s : State) : (s.readyCopies).link = s.link := rfl
@[simp] theorem readyCopies_order (s : State) : (s.readyCopies).order = s.order := rfl
@[simp] theorem readyCopies_tamper (s : State) : (s.readyCopies).tamper = s.tamper := rfl
@[simp] theorem readyCopies_report (s : State) : (s.readyCopies).report = s.report := rfl
@[simp] theorem readyCopies_time (s : State) : (s.readyCopies).time = s.time := rfl
@[simp] theorem readyCopies_power (s : State) : (s.readyCopies).power = s.power := rfl
@[simp] theorem readyCopies_free (s : State) : (s.readyCopies).free = s.free := rfl
@[simp] theorem readyCopies_pending (s : State) : (s.readyCopies).pending = s.pending := rfl

@[simp] theorem discardCopies_core (s : State) : (s.discardCopies).core = s.core := rfl
@[simp] theorem discardCopies_runs (s : State) : (s.discardCopies).runs = s.runs := rfl
@[simp] theorem discardCopies_recipes (s : State) : (s.discardCopies).recipes = s.recipes := rfl
@[simp] theorem discardCopies_engine (s : State) : (s.discardCopies).engine = s.engine := rfl
@[simp] theorem discardCopies_dispatch (s : State) : (s.discardCopies).dispatch = s.dispatch := rfl
@[simp] theorem discardCopies_link (s : State) : (s.discardCopies).link = s.link := rfl
@[simp] theorem discardCopies_order (s : State) : (s.discardCopies).order = s.order := rfl
@[simp] theorem discardCopies_tamper (s : State) : (s.discardCopies).tamper = s.tamper := rfl
@[simp] theorem discardCopies_report (s : State) : (s.discardCopies).report = s.report := rfl
@[simp] theorem discardCopies_time (s : State) : (s.discardCopies).time = s.time := rfl
@[simp] theorem discardCopies_power (s : State) : (s.discardCopies).power = s.power := rfl
@[simp] theorem discardCopies_free (s : State) : (s.discardCopies).free = s.free := rfl
@[simp] theorem discardCopies_pending (s : State) : (s.discardCopies).pending = s.pending := rfl

@[simp] theorem reportUnusable_store (s : State) (n : SlotNo) : (s.reportUnusable n).store = s.store := rfl
@[simp] theorem reportUnusable_core (s : State) (n : SlotNo) : (s.reportUnusable n).core = s.core := rfl
@[simp] theorem reportUnusable_recipes (s : State) (n : SlotNo) : (s.reportUnusable n).recipes = s.recipes := rfl
@[simp] theorem reportUnusable_engine (s : State) (n : SlotNo) : (s.reportUnusable n).engine = s.engine := rfl
@[simp] theorem reportUnusable_dispatch (s : State) (n : SlotNo) : (s.reportUnusable n).dispatch = s.dispatch := rfl
@[simp] theorem reportUnusable_link (s : State) (n : SlotNo) : (s.reportUnusable n).link = s.link := rfl
@[simp] theorem reportUnusable_order (s : State) (n : SlotNo) : (s.reportUnusable n).order = s.order := rfl
@[simp] theorem reportUnusable_tamper (s : State) (n : SlotNo) : (s.reportUnusable n).tamper = s.tamper := rfl
@[simp] theorem reportUnusable_report (s : State) (n : SlotNo) : (s.reportUnusable n).report = s.report := rfl
@[simp] theorem reportUnusable_time (s : State) (n : SlotNo) : (s.reportUnusable n).time = s.time := rfl
@[simp] theorem reportUnusable_power (s : State) (n : SlotNo) : (s.reportUnusable n).power = s.power := rfl
@[simp] theorem reportUnusable_free (s : State) (n : SlotNo) : (s.reportUnusable n).free = s.free := rfl
@[simp] theorem reportUnusable_pending (s : State) (n : SlotNo) : (s.reportUnusable n).pending = s.pending := rfl

@[simp] theorem endStep_store (s : State) : (s.endStep).store = s.store := rfl
@[simp] theorem endStep_runs (s : State) : (s.endStep).runs = s.runs := rfl
@[simp] theorem endStep_recipes (s : State) : (s.endStep).recipes = s.recipes := rfl
@[simp] theorem endStep_engine (s : State) : (s.endStep).engine = s.engine := rfl
@[simp] theorem endStep_dispatch (s : State) : (s.endStep).dispatch = s.dispatch := rfl
@[simp] theorem endStep_link (s : State) : (s.endStep).link = s.link := rfl
@[simp] theorem endStep_order (s : State) : (s.endStep).order = s.order := rfl
@[simp] theorem endStep_tamper (s : State) : (s.endStep).tamper = s.tamper := rfl
@[simp] theorem endStep_report (s : State) : (s.endStep).report = s.report := rfl
@[simp] theorem endStep_time (s : State) : (s.endStep).time = s.time := rfl
@[simp] theorem endStep_power (s : State) : (s.endStep).power = s.power := rfl
@[simp] theorem endStep_free (s : State) : (s.endStep).free = s.free := rfl
@[simp] theorem endStep_pending (s : State) : (s.endStep).pending = s.pending := rfl

@[simp] theorem discardEngineStep_store (s : State) : (s.discardEngineStep).store = s.store := rfl
@[simp] theorem discardEngineStep_runs (s : State) : (s.discardEngineStep).runs = s.runs := rfl
@[simp] theorem discardEngineStep_recipes (s : State) : (s.discardEngineStep).recipes = s.recipes := rfl
@[simp] theorem discardEngineStep_engine (s : State) : (s.discardEngineStep).engine = s.engine := rfl
@[simp] theorem discardEngineStep_dispatch (s : State) : (s.discardEngineStep).dispatch = s.dispatch := rfl
@[simp] theorem discardEngineStep_link (s : State) : (s.discardEngineStep).link = s.link := rfl
@[simp] theorem discardEngineStep_order (s : State) : (s.discardEngineStep).order = s.order := rfl
@[simp] theorem discardEngineStep_tamper (s : State) : (s.discardEngineStep).tamper = s.tamper := rfl
@[simp] theorem discardEngineStep_report (s : State) : (s.discardEngineStep).report = s.report := rfl
@[simp] theorem discardEngineStep_time (s : State) : (s.discardEngineStep).time = s.time := rfl
@[simp] theorem discardEngineStep_power (s : State) : (s.discardEngineStep).power = s.power := rfl
@[simp] theorem discardEngineStep_free (s : State) : (s.discardEngineStep).free = s.free := rfl
@[simp] theorem discardEngineStep_pending (s : State) : (s.discardEngineStep).pending = s.pending := rfl

@[simp] theorem discardUser_store (s : State) (u : KsUser) : (s.discardUser u).store = s.store := rfl
@[simp] theorem discardUser_runs (s : State) (u : KsUser) : (s.discardUser u).runs = s.runs := rfl
@[simp] theorem discardUser_recipes (s : State) (u : KsUser) : (s.discardUser u).recipes = s.recipes := rfl
@[simp] theorem discardUser_engine (s : State) (u : KsUser) : (s.discardUser u).engine = s.engine := rfl
@[simp] theorem discardUser_dispatch (s : State) (u : KsUser) : (s.discardUser u).dispatch = s.dispatch := rfl
@[simp] theorem discardUser_link (s : State) (u : KsUser) : (s.discardUser u).link = s.link := rfl
@[simp] theorem discardUser_order (s : State) (u : KsUser) : (s.discardUser u).order = s.order := rfl
@[simp] theorem discardUser_tamper (s : State) (u : KsUser) : (s.discardUser u).tamper = s.tamper := rfl
@[simp] theorem discardUser_report (s : State) (u : KsUser) : (s.discardUser u).report = s.report := rfl
@[simp] theorem discardUser_time (s : State) (u : KsUser) : (s.discardUser u).time = s.time := rfl
@[simp] theorem discardUser_power (s : State) (u : KsUser) : (s.discardUser u).power = s.power := rfl
@[simp] theorem discardUser_free (s : State) (u : KsUser) : (s.discardUser u).free = s.free := rfl
@[simp] theorem discardUser_pending (s : State) (u : KsUser) : (s.discardUser u).pending = s.pending := rfl

/-! ### Orders and frames -/

@[simp] theorem flagTag_store (s : State) : (s.flagTag).store = s.store := rfl
@[simp] theorem flagTag_core (s : State) : (s.flagTag).core = s.core := rfl
@[simp] theorem flagTag_runs (s : State) : (s.flagTag).runs = s.runs := rfl
@[simp] theorem flagTag_recipes (s : State) : (s.flagTag).recipes = s.recipes := rfl
@[simp] theorem flagTag_engine (s : State) : (s.flagTag).engine = s.engine := rfl
@[simp] theorem flagTag_dispatch (s : State) : (s.flagTag).dispatch = s.dispatch := rfl
@[simp] theorem flagTag_order (s : State) : (s.flagTag).order = s.order := rfl
@[simp] theorem flagTag_tamper (s : State) : (s.flagTag).tamper = s.tamper := rfl
@[simp] theorem flagTag_report (s : State) : (s.flagTag).report = s.report := rfl
@[simp] theorem flagTag_time (s : State) : (s.flagTag).time = s.time := rfl
@[simp] theorem flagTag_power (s : State) : (s.flagTag).power = s.power := rfl
@[simp] theorem flagTag_free (s : State) : (s.flagTag).free = s.free := rfl
@[simp] theorem flagTag_pending (s : State) : (s.flagTag).pending = s.pending := rfl

@[simp] theorem flagNumber_store (s : State) : (s.flagNumber).store = s.store := rfl
@[simp] theorem flagNumber_core (s : State) : (s.flagNumber).core = s.core := rfl
@[simp] theorem flagNumber_runs (s : State) : (s.flagNumber).runs = s.runs := rfl
@[simp] theorem flagNumber_recipes (s : State) : (s.flagNumber).recipes = s.recipes := rfl
@[simp] theorem flagNumber_engine (s : State) : (s.flagNumber).engine = s.engine := rfl
@[simp] theorem flagNumber_dispatch (s : State) : (s.flagNumber).dispatch = s.dispatch := rfl
@[simp] theorem flagNumber_order (s : State) : (s.flagNumber).order = s.order := rfl
@[simp] theorem flagNumber_tamper (s : State) : (s.flagNumber).tamper = s.tamper := rfl
@[simp] theorem flagNumber_report (s : State) : (s.flagNumber).report = s.report := rfl
@[simp] theorem flagNumber_time (s : State) : (s.flagNumber).time = s.time := rfl
@[simp] theorem flagNumber_power (s : State) : (s.flagNumber).power = s.power := rfl
@[simp] theorem flagNumber_free (s : State) : (s.flagNumber).free = s.free := rfl
@[simp] theorem flagNumber_pending (s : State) : (s.flagNumber).pending = s.pending := rfl

@[simp] theorem passOnward_store (s : State) (f : Bytes) : (s.passOnward f).store = s.store := rfl
@[simp] theorem passOnward_core (s : State) (f : Bytes) : (s.passOnward f).core = s.core := rfl
@[simp] theorem passOnward_runs (s : State) (f : Bytes) : (s.passOnward f).runs = s.runs := rfl
@[simp] theorem passOnward_recipes (s : State) (f : Bytes) : (s.passOnward f).recipes = s.recipes := rfl
@[simp] theorem passOnward_engine (s : State) (f : Bytes) : (s.passOnward f).engine = s.engine := rfl
@[simp] theorem passOnward_dispatch (s : State) (f : Bytes) : (s.passOnward f).dispatch = s.dispatch := rfl
@[simp] theorem passOnward_order (s : State) (f : Bytes) : (s.passOnward f).order = s.order := rfl
@[simp] theorem passOnward_tamper (s : State) (f : Bytes) : (s.passOnward f).tamper = s.tamper := rfl
@[simp] theorem passOnward_report (s : State) (f : Bytes) : (s.passOnward f).report = s.report := rfl
@[simp] theorem passOnward_time (s : State) (f : Bytes) : (s.passOnward f).time = s.time := rfl
@[simp] theorem passOnward_power (s : State) (f : Bytes) : (s.passOnward f).power = s.power := rfl
@[simp] theorem passOnward_free (s : State) (f : Bytes) : (s.passOnward f).free = s.free := rfl
@[simp] theorem passOnward_pending (s : State) (f : Bytes) : (s.passOnward f).pending = s.pending := rfl

@[simp] theorem appendGrant_store (s : State) (g : Grant) : (s.appendGrant g).store = s.store := rfl
@[simp] theorem appendGrant_core (s : State) (g : Grant) : (s.appendGrant g).core = s.core := rfl
@[simp] theorem appendGrant_runs (s : State) (g : Grant) : (s.appendGrant g).runs = s.runs := rfl
@[simp] theorem appendGrant_recipes (s : State) (g : Grant) : (s.appendGrant g).recipes = s.recipes := rfl
@[simp] theorem appendGrant_engine (s : State) (g : Grant) : (s.appendGrant g).engine = s.engine := rfl
@[simp] theorem appendGrant_dispatch (s : State) (g : Grant) : (s.appendGrant g).dispatch = s.dispatch := rfl
@[simp] theorem appendGrant_link (s : State) (g : Grant) : (s.appendGrant g).link = s.link := rfl
@[simp] theorem appendGrant_tamper (s : State) (g : Grant) : (s.appendGrant g).tamper = s.tamper := rfl
@[simp] theorem appendGrant_report (s : State) (g : Grant) : (s.appendGrant g).report = s.report := rfl
@[simp] theorem appendGrant_time (s : State) (g : Grant) : (s.appendGrant g).time = s.time := rfl
@[simp] theorem appendGrant_power (s : State) (g : Grant) : (s.appendGrant g).power = s.power := rfl
@[simp] theorem appendGrant_free (s : State) (g : Grant) : (s.appendGrant g).free = s.free := rfl
@[simp] theorem appendGrant_pending (s : State) (g : Grant) : (s.appendGrant g).pending = s.pending := rfl

@[simp] theorem hold_store (s : State) (h : OrderInHand) : (s.hold h).store = s.store := rfl
@[simp] theorem hold_core (s : State) (h : OrderInHand) : (s.hold h).core = s.core := rfl
@[simp] theorem hold_runs (s : State) (h : OrderInHand) : (s.hold h).runs = s.runs := rfl
@[simp] theorem hold_recipes (s : State) (h : OrderInHand) : (s.hold h).recipes = s.recipes := rfl
@[simp] theorem hold_engine (s : State) (h : OrderInHand) : (s.hold h).engine = s.engine := rfl
@[simp] theorem hold_dispatch (s : State) (h : OrderInHand) : (s.hold h).dispatch = s.dispatch := rfl
@[simp] theorem hold_link (s : State) (h : OrderInHand) : (s.hold h).link = s.link := rfl
@[simp] theorem hold_tamper (s : State) (h : OrderInHand) : (s.hold h).tamper = s.tamper := rfl
@[simp] theorem hold_report (s : State) (h : OrderInHand) : (s.hold h).report = s.report := rfl
@[simp] theorem hold_time (s : State) (h : OrderInHand) : (s.hold h).time = s.time := rfl
@[simp] theorem hold_power (s : State) (h : OrderInHand) : (s.hold h).power = s.power := rfl
@[simp] theorem hold_free (s : State) (h : OrderInHand) : (s.hold h).free = s.free := rfl
@[simp] theorem hold_pending (s : State) (h : OrderInHand) : (s.hold h).pending = s.pending := rfl

@[simp] theorem setHandling_store (s : State) (f : Handling → Handling) : (s.setHandling f).store = s.store := rfl
@[simp] theorem setHandling_core (s : State) (f : Handling → Handling) : (s.setHandling f).core = s.core := rfl
@[simp] theorem setHandling_runs (s : State) (f : Handling → Handling) : (s.setHandling f).runs = s.runs := rfl
@[simp] theorem setHandling_recipes (s : State) (f : Handling → Handling) : (s.setHandling f).recipes = s.recipes := rfl
@[simp] theorem setHandling_engine (s : State) (f : Handling → Handling) : (s.setHandling f).engine = s.engine := rfl
@[simp] theorem setHandling_dispatch (s : State) (f : Handling → Handling) : (s.setHandling f).dispatch = s.dispatch := rfl
@[simp] theorem setHandling_link (s : State) (f : Handling → Handling) : (s.setHandling f).link = s.link := rfl
@[simp] theorem setHandling_tamper (s : State) (f : Handling → Handling) : (s.setHandling f).tamper = s.tamper := rfl
@[simp] theorem setHandling_report (s : State) (f : Handling → Handling) : (s.setHandling f).report = s.report := rfl
@[simp] theorem setHandling_time (s : State) (f : Handling → Handling) : (s.setHandling f).time = s.time := rfl
@[simp] theorem setHandling_power (s : State) (f : Handling → Handling) : (s.setHandling f).power = s.power := rfl
@[simp] theorem setHandling_free (s : State) (f : Handling → Handling) : (s.setHandling f).free = s.free := rfl
@[simp] theorem setHandling_pending (s : State) (f : Handling → Handling) : (s.setHandling f).pending = s.pending := rfl

@[simp] theorem clearLost_store (s : State) : (s.clearLost).store = s.store := rfl
@[simp] theorem clearLost_core (s : State) : (s.clearLost).core = s.core := rfl
@[simp] theorem clearLost_runs (s : State) : (s.clearLost).runs = s.runs := rfl
@[simp] theorem clearLost_recipes (s : State) : (s.clearLost).recipes = s.recipes := rfl
@[simp] theorem clearLost_engine (s : State) : (s.clearLost).engine = s.engine := rfl
@[simp] theorem clearLost_dispatch (s : State) : (s.clearLost).dispatch = s.dispatch := rfl
@[simp] theorem clearLost_link (s : State) : (s.clearLost).link = s.link := rfl
@[simp] theorem clearLost_order (s : State) : (s.clearLost).order = s.order := rfl
@[simp] theorem clearLost_tamper (s : State) : (s.clearLost).tamper = s.tamper := rfl
@[simp] theorem clearLost_time (s : State) : (s.clearLost).time = s.time := rfl
@[simp] theorem clearLost_power (s : State) : (s.clearLost).power = s.power := rfl
@[simp] theorem clearLost_free (s : State) : (s.clearLost).free = s.free := rfl
@[simp] theorem clearLost_pending (s : State) : (s.clearLost).pending = s.pending := rfl

@[simp] theorem setJob_store (s : State) (f : TagJob → NoticeTag) : (s.setJob f).store = s.store := rfl
@[simp] theorem setJob_core (s : State) (f : TagJob → NoticeTag) : (s.setJob f).core = s.core := rfl
@[simp] theorem setJob_runs (s : State) (f : TagJob → NoticeTag) : (s.setJob f).runs = s.runs := rfl
@[simp] theorem setJob_recipes (s : State) (f : TagJob → NoticeTag) : (s.setJob f).recipes = s.recipes := rfl
@[simp] theorem setJob_engine (s : State) (f : TagJob → NoticeTag) : (s.setJob f).engine = s.engine := rfl
@[simp] theorem setJob_dispatch (s : State) (f : TagJob → NoticeTag) : (s.setJob f).dispatch = s.dispatch := rfl
@[simp] theorem setJob_link (s : State) (f : TagJob → NoticeTag) : (s.setJob f).link = s.link := rfl
@[simp] theorem setJob_order (s : State) (f : TagJob → NoticeTag) : (s.setJob f).order = s.order := rfl
@[simp] theorem setJob_tamper (s : State) (f : TagJob → NoticeTag) : (s.setJob f).tamper = s.tamper := rfl
@[simp] theorem setJob_time (s : State) (f : TagJob → NoticeTag) : (s.setJob f).time = s.time := rfl
@[simp] theorem setJob_power (s : State) (f : TagJob → NoticeTag) : (s.setJob f).power = s.power := rfl
@[simp] theorem setJob_free (s : State) (f : TagJob → NoticeTag) : (s.setJob f).free = s.free := rfl
@[simp] theorem setJob_pending (s : State) (f : TagJob → NoticeTag) : (s.setJob f).pending = s.pending := rfl

@[simp] theorem addRun_store (s : State) (r : Run) : (s.addRun r).store = s.store := rfl
@[simp] theorem addRun_core (s : State) (r : Run) : (s.addRun r).core = s.core := rfl
@[simp] theorem addRun_recipes (s : State) (r : Run) : (s.addRun r).recipes = s.recipes := rfl
@[simp] theorem addRun_engine (s : State) (r : Run) : (s.addRun r).engine = s.engine := rfl
@[simp] theorem addRun_dispatch (s : State) (r : Run) : (s.addRun r).dispatch = s.dispatch := rfl
@[simp] theorem addRun_link (s : State) (r : Run) : (s.addRun r).link = s.link := rfl
@[simp] theorem addRun_order (s : State) (r : Run) : (s.addRun r).order = s.order := rfl
@[simp] theorem addRun_tamper (s : State) (r : Run) : (s.addRun r).tamper = s.tamper := rfl
@[simp] theorem addRun_report (s : State) (r : Run) : (s.addRun r).report = s.report := rfl
@[simp] theorem addRun_time (s : State) (r : Run) : (s.addRun r).time = s.time := rfl
@[simp] theorem addRun_power (s : State) (r : Run) : (s.addRun r).power = s.power := rfl
@[simp] theorem addRun_free (s : State) (r : Run) : (s.addRun r).free = s.free := rfl
@[simp] theorem addRun_pending (s : State) (r : Run) : (s.addRun r).pending = s.pending := rfl

@[simp] theorem setRecipe_store (s : State) (n : RecipeNo) (a : List Action) : (s.setRecipe n a).store = s.store := rfl
@[simp] theorem setRecipe_core (s : State) (n : RecipeNo) (a : List Action) : (s.setRecipe n a).core = s.core := rfl
@[simp] theorem setRecipe_runs (s : State) (n : RecipeNo) (a : List Action) : (s.setRecipe n a).runs = s.runs := rfl
@[simp] theorem setRecipe_engine (s : State) (n : RecipeNo) (a : List Action) : (s.setRecipe n a).engine = s.engine := rfl
@[simp] theorem setRecipe_dispatch (s : State) (n : RecipeNo) (a : List Action) : (s.setRecipe n a).dispatch = s.dispatch := rfl
@[simp] theorem setRecipe_link (s : State) (n : RecipeNo) (a : List Action) : (s.setRecipe n a).link = s.link := rfl
@[simp] theorem setRecipe_order (s : State) (n : RecipeNo) (a : List Action) : (s.setRecipe n a).order = s.order := rfl
@[simp] theorem setRecipe_tamper (s : State) (n : RecipeNo) (a : List Action) : (s.setRecipe n a).tamper = s.tamper := rfl
@[simp] theorem setRecipe_report (s : State) (n : RecipeNo) (a : List Action) : (s.setRecipe n a).report = s.report := rfl
@[simp] theorem setRecipe_time (s : State) (n : RecipeNo) (a : List Action) : (s.setRecipe n a).time = s.time := rfl
@[simp] theorem setRecipe_power (s : State) (n : RecipeNo) (a : List Action) : (s.setRecipe n a).power = s.power := rfl
@[simp] theorem setRecipe_free (s : State) (n : RecipeNo) (a : List Action) : (s.setRecipe n a).free = s.free := rfl
@[simp] theorem setRecipe_pending (s : State) (n : RecipeNo) (a : List Action) : (s.setRecipe n a).pending = s.pending := rfl

@[simp] theorem mapLines_store (s : State) (f : LineNo → Line → Line) : (s.mapLines f).store = s.store := rfl
@[simp] theorem mapLines_core (s : State) (f : LineNo → Line → Line) : (s.mapLines f).core = s.core := rfl
@[simp] theorem mapLines_runs (s : State) (f : LineNo → Line → Line) : (s.mapLines f).runs = s.runs := rfl
@[simp] theorem mapLines_recipes (s : State) (f : LineNo → Line → Line) : (s.mapLines f).recipes = s.recipes := rfl
@[simp] theorem mapLines_engine (s : State) (f : LineNo → Line → Line) : (s.mapLines f).engine = s.engine := rfl
@[simp] theorem mapLines_link (s : State) (f : LineNo → Line → Line) : (s.mapLines f).link = s.link := rfl
@[simp] theorem mapLines_order (s : State) (f : LineNo → Line → Line) : (s.mapLines f).order = s.order := rfl
@[simp] theorem mapLines_tamper (s : State) (f : LineNo → Line → Line) : (s.mapLines f).tamper = s.tamper := rfl
@[simp] theorem mapLines_report (s : State) (f : LineNo → Line → Line) : (s.mapLines f).report = s.report := rfl
@[simp] theorem mapLines_time (s : State) (f : LineNo → Line → Line) : (s.mapLines f).time = s.time := rfl
@[simp] theorem mapLines_power (s : State) (f : LineNo → Line → Line) : (s.mapLines f).power = s.power := rfl
@[simp] theorem mapLines_free (s : State) (f : LineNo → Line → Line) : (s.mapLines f).free = s.free := rfl
@[simp] theorem mapLines_pending (s : State) (f : LineNo → Line → Line) : (s.mapLines f).pending = s.pending := rfl

@[simp] theorem placeLine_store (s : State) (l : LineNo) (g : BitVec 4) : (s.placeLine l g).store = s.store := rfl
@[simp] theorem placeLine_core (s : State) (l : LineNo) (g : BitVec 4) : (s.placeLine l g).core = s.core := rfl
@[simp] theorem placeLine_runs (s : State) (l : LineNo) (g : BitVec 4) : (s.placeLine l g).runs = s.runs := rfl
@[simp] theorem placeLine_recipes (s : State) (l : LineNo) (g : BitVec 4) : (s.placeLine l g).recipes = s.recipes := rfl
@[simp] theorem placeLine_engine (s : State) (l : LineNo) (g : BitVec 4) : (s.placeLine l g).engine = s.engine := rfl
@[simp] theorem placeLine_link (s : State) (l : LineNo) (g : BitVec 4) : (s.placeLine l g).link = s.link := rfl
@[simp] theorem placeLine_order (s : State) (l : LineNo) (g : BitVec 4) : (s.placeLine l g).order = s.order := rfl
@[simp] theorem placeLine_tamper (s : State) (l : LineNo) (g : BitVec 4) : (s.placeLine l g).tamper = s.tamper := rfl
@[simp] theorem placeLine_report (s : State) (l : LineNo) (g : BitVec 4) : (s.placeLine l g).report = s.report := rfl
@[simp] theorem placeLine_time (s : State) (l : LineNo) (g : BitVec 4) : (s.placeLine l g).time = s.time := rfl
@[simp] theorem placeLine_power (s : State) (l : LineNo) (g : BitVec 4) : (s.placeLine l g).power = s.power := rfl
@[simp] theorem placeLine_free (s : State) (l : LineNo) (g : BitVec 4) : (s.placeLine l g).free = s.free := rfl
@[simp] theorem placeLine_pending (s : State) (l : LineNo) (g : BitVec 4) : (s.placeLine l g).pending = s.pending := rfl

@[simp] theorem setGroup_store (s : State) (g : GroupNo) (m : BitVec 8) : (s.setGroup g m).store = s.store := rfl
@[simp] theorem setGroup_core (s : State) (g : GroupNo) (m : BitVec 8) : (s.setGroup g m).core = s.core := rfl
@[simp] theorem setGroup_runs (s : State) (g : GroupNo) (m : BitVec 8) : (s.setGroup g m).runs = s.runs := rfl
@[simp] theorem setGroup_recipes (s : State) (g : GroupNo) (m : BitVec 8) : (s.setGroup g m).recipes = s.recipes := rfl
@[simp] theorem setGroup_engine (s : State) (g : GroupNo) (m : BitVec 8) : (s.setGroup g m).engine = s.engine := rfl
@[simp] theorem setGroup_link (s : State) (g : GroupNo) (m : BitVec 8) : (s.setGroup g m).link = s.link := rfl
@[simp] theorem setGroup_order (s : State) (g : GroupNo) (m : BitVec 8) : (s.setGroup g m).order = s.order := rfl
@[simp] theorem setGroup_tamper (s : State) (g : GroupNo) (m : BitVec 8) : (s.setGroup g m).tamper = s.tamper := rfl
@[simp] theorem setGroup_report (s : State) (g : GroupNo) (m : BitVec 8) : (s.setGroup g m).report = s.report := rfl
@[simp] theorem setGroup_time (s : State) (g : GroupNo) (m : BitVec 8) : (s.setGroup g m).time = s.time := rfl
@[simp] theorem setGroup_power (s : State) (g : GroupNo) (m : BitVec 8) : (s.setGroup g m).power = s.power := rfl
@[simp] theorem setGroup_free (s : State) (g : GroupNo) (m : BitVec 8) : (s.setGroup g m).free = s.free := rfl
@[simp] theorem setGroup_pending (s : State) (g : GroupNo) (m : BitVec 8) : (s.setGroup g m).pending = s.pending := rfl

@[simp] theorem setProduction_store (s : State) (b : Bool) : (s.setProduction b).store = s.store := rfl
@[simp] theorem setProduction_core (s : State) (b : Bool) : (s.setProduction b).core = s.core := rfl
@[simp] theorem setProduction_runs (s : State) (b : Bool) : (s.setProduction b).runs = s.runs := rfl
@[simp] theorem setProduction_recipes (s : State) (b : Bool) : (s.setProduction b).recipes = s.recipes := rfl
@[simp] theorem setProduction_engine (s : State) (b : Bool) : (s.setProduction b).engine = s.engine := rfl
@[simp] theorem setProduction_link (s : State) (b : Bool) : (s.setProduction b).link = s.link := rfl
@[simp] theorem setProduction_order (s : State) (b : Bool) : (s.setProduction b).order = s.order := rfl
@[simp] theorem setProduction_tamper (s : State) (b : Bool) : (s.setProduction b).tamper = s.tamper := rfl
@[simp] theorem setProduction_report (s : State) (b : Bool) : (s.setProduction b).report = s.report := rfl
@[simp] theorem setProduction_time (s : State) (b : Bool) : (s.setProduction b).time = s.time := rfl
@[simp] theorem setProduction_power (s : State) (b : Bool) : (s.setProduction b).power = s.power := rfl
@[simp] theorem setProduction_free (s : State) (b : Bool) : (s.setProduction b).free = s.free := rfl
@[simp] theorem setProduction_pending (s : State) (b : Bool) : (s.setProduction b).pending = s.pending := rfl

/-! ### Store, monitor, time and power -/

@[simp] theorem endScrub_core (s : State) : (s.endScrub).core = s.core := rfl
@[simp] theorem endScrub_runs (s : State) : (s.endScrub).runs = s.runs := rfl
@[simp] theorem endScrub_recipes (s : State) : (s.endScrub).recipes = s.recipes := rfl
@[simp] theorem endScrub_engine (s : State) : (s.endScrub).engine = s.engine := rfl
@[simp] theorem endScrub_dispatch (s : State) : (s.endScrub).dispatch = s.dispatch := rfl
@[simp] theorem endScrub_link (s : State) : (s.endScrub).link = s.link := rfl
@[simp] theorem endScrub_order (s : State) : (s.endScrub).order = s.order := rfl
@[simp] theorem endScrub_tamper (s : State) : (s.endScrub).tamper = s.tamper := rfl
@[simp] theorem endScrub_report (s : State) : (s.endScrub).report = s.report := rfl
@[simp] theorem endScrub_time (s : State) : (s.endScrub).time = s.time := rfl
@[simp] theorem endScrub_power (s : State) : (s.endScrub).power = s.power := rfl
@[simp] theorem endScrub_free (s : State) : (s.endScrub).free = s.free := rfl
@[simp] theorem endScrub_pending (s : State) : (s.endScrub).pending = s.pending := rfl

@[simp] theorem scrubAgain_core (s : State) : (scrubAgain s).core = s.core := rfl
@[simp] theorem scrubAgain_runs (s : State) : (scrubAgain s).runs = s.runs := rfl
@[simp] theorem scrubAgain_recipes (s : State) : (scrubAgain s).recipes = s.recipes := rfl
@[simp] theorem scrubAgain_engine (s : State) : (scrubAgain s).engine = s.engine := rfl
@[simp] theorem scrubAgain_dispatch (s : State) : (scrubAgain s).dispatch = s.dispatch := rfl
@[simp] theorem scrubAgain_link (s : State) : (scrubAgain s).link = s.link := rfl
@[simp] theorem scrubAgain_order (s : State) : (scrubAgain s).order = s.order := rfl
@[simp] theorem scrubAgain_tamper (s : State) : (scrubAgain s).tamper = s.tamper := rfl
@[simp] theorem scrubAgain_report (s : State) : (scrubAgain s).report = s.report := rfl
@[simp] theorem scrubAgain_time (s : State) : (scrubAgain s).time = s.time := rfl
@[simp] theorem scrubAgain_power (s : State) : (scrubAgain s).power = s.power := rfl
@[simp] theorem scrubAgain_free (s : State) : (scrubAgain s).free = s.free := rfl
@[simp] theorem scrubAgain_pending (s : State) : (scrubAgain s).pending = s.pending := rfl

@[simp] theorem enterTamper_store (s : State) (x : TamperSource) (a : TamperAction) : (s.enterTamper x a).store = s.store := rfl
@[simp] theorem enterTamper_core (s : State) (x : TamperSource) (a : TamperAction) : (s.enterTamper x a).core = s.core := rfl
@[simp] theorem enterTamper_runs (s : State) (x : TamperSource) (a : TamperAction) : (s.enterTamper x a).runs = s.runs := rfl
@[simp] theorem enterTamper_recipes (s : State) (x : TamperSource) (a : TamperAction) : (s.enterTamper x a).recipes = s.recipes := rfl
@[simp] theorem enterTamper_engine (s : State) (x : TamperSource) (a : TamperAction) : (s.enterTamper x a).engine = s.engine := rfl
@[simp] theorem enterTamper_dispatch (s : State) (x : TamperSource) (a : TamperAction) : (s.enterTamper x a).dispatch = s.dispatch := rfl
@[simp] theorem enterTamper_link (s : State) (x : TamperSource) (a : TamperAction) : (s.enterTamper x a).link = s.link := rfl
@[simp] theorem enterTamper_order (s : State) (x : TamperSource) (a : TamperAction) : (s.enterTamper x a).order = s.order := rfl
@[simp] theorem enterTamper_report (s : State) (x : TamperSource) (a : TamperAction) : (s.enterTamper x a).report = s.report := rfl
@[simp] theorem enterTamper_time (s : State) (x : TamperSource) (a : TamperAction) : (s.enterTamper x a).time = s.time := rfl
@[simp] theorem enterTamper_power (s : State) (x : TamperSource) (a : TamperAction) : (s.enterTamper x a).power = s.power := rfl
@[simp] theorem enterTamper_free (s : State) (x : TamperSource) (a : TamperAction) : (s.enterTamper x a).free = s.free := rfl
@[simp] theorem enterTamper_pending (s : State) (x : TamperSource) (a : TamperAction) : (s.enterTamper x a).pending = s.pending := rfl

@[simp] theorem clearRecord_store (s : State) : (clearRecord s).store = s.store := rfl
@[simp] theorem clearRecord_core (s : State) : (clearRecord s).core = s.core := rfl
@[simp] theorem clearRecord_runs (s : State) : (clearRecord s).runs = s.runs := rfl
@[simp] theorem clearRecord_recipes (s : State) : (clearRecord s).recipes = s.recipes := rfl
@[simp] theorem clearRecord_engine (s : State) : (clearRecord s).engine = s.engine := rfl
@[simp] theorem clearRecord_dispatch (s : State) : (clearRecord s).dispatch = s.dispatch := rfl
@[simp] theorem clearRecord_link (s : State) : (clearRecord s).link = s.link := rfl
@[simp] theorem clearRecord_order (s : State) : (clearRecord s).order = s.order := rfl
@[simp] theorem clearRecord_report (s : State) : (clearRecord s).report = s.report := rfl
@[simp] theorem clearRecord_time (s : State) : (clearRecord s).time = s.time := rfl
@[simp] theorem clearRecord_power (s : State) : (clearRecord s).power = s.power := rfl
@[simp] theorem clearRecord_free (s : State) : (clearRecord s).free = s.free := rfl
@[simp] theorem clearRecord_pending (s : State) : (clearRecord s).pending = s.pending := rfl

@[simp] theorem setInput_store (s : State) (i : SensorNo) (b : Bool) : (s.setInput i b).store = s.store := rfl
@[simp] theorem setInput_core (s : State) (i : SensorNo) (b : Bool) : (s.setInput i b).core = s.core := rfl
@[simp] theorem setInput_runs (s : State) (i : SensorNo) (b : Bool) : (s.setInput i b).runs = s.runs := rfl
@[simp] theorem setInput_recipes (s : State) (i : SensorNo) (b : Bool) : (s.setInput i b).recipes = s.recipes := rfl
@[simp] theorem setInput_engine (s : State) (i : SensorNo) (b : Bool) : (s.setInput i b).engine = s.engine := rfl
@[simp] theorem setInput_dispatch (s : State) (i : SensorNo) (b : Bool) : (s.setInput i b).dispatch = s.dispatch := rfl
@[simp] theorem setInput_link (s : State) (i : SensorNo) (b : Bool) : (s.setInput i b).link = s.link := rfl
@[simp] theorem setInput_order (s : State) (i : SensorNo) (b : Bool) : (s.setInput i b).order = s.order := rfl
@[simp] theorem setInput_report (s : State) (i : SensorNo) (b : Bool) : (s.setInput i b).report = s.report := rfl
@[simp] theorem setInput_time (s : State) (i : SensorNo) (b : Bool) : (s.setInput i b).time = s.time := rfl
@[simp] theorem setInput_power (s : State) (i : SensorNo) (b : Bool) : (s.setInput i b).power = s.power := rfl
@[simp] theorem setInput_free (s : State) (i : SensorNo) (b : Bool) : (s.setInput i b).free = s.free := rfl
@[simp] theorem setInput_pending (s : State) (i : SensorNo) (b : Bool) : (s.setInput i b).pending = s.pending := rfl

@[simp] theorem countTick_store (s : State) : (s.countTick).store = s.store := rfl
@[simp] theorem countTick_core (s : State) : (s.countTick).core = s.core := rfl
@[simp] theorem countTick_runs (s : State) : (s.countTick).runs = s.runs := rfl
@[simp] theorem countTick_recipes (s : State) : (s.countTick).recipes = s.recipes := rfl
@[simp] theorem countTick_engine (s : State) : (s.countTick).engine = s.engine := rfl
@[simp] theorem countTick_dispatch (s : State) : (s.countTick).dispatch = s.dispatch := rfl
@[simp] theorem countTick_link (s : State) : (s.countTick).link = s.link := rfl
@[simp] theorem countTick_order (s : State) : (s.countTick).order = s.order := rfl
@[simp] theorem countTick_report (s : State) : (s.countTick).report = s.report := rfl
@[simp] theorem countTick_power (s : State) : (s.countTick).power = s.power := rfl
@[simp] theorem countTick_free (s : State) : (s.countTick).free = s.free := rfl
@[simp] theorem countTick_pending (s : State) : (s.countTick).pending = s.pending := rfl

@[simp] theorem mainReset_tamper (s : State) : (mainReset s).tamper = s.tamper := rfl
@[simp] theorem mainReset_free (s : State) : (mainReset s).free = s.free := rfl
@[simp] theorem mainReset_pending (s : State) : (mainReset s).pending = s.pending := rfl

/-! ### The record that is replaced -/

@[simp] theorem setSlot_slot_self (s : State) (n : SlotNo) (k : Slot) : (s.setSlot n k).slot n = k := by
  simp [State.setSlot, State.slot]

theorem setSlot_slot (s : State) (n m : SlotNo) (k : Slot) : (s.setSlot n k).slot m = if n = m then k else s.slot m := by
  simp [State.setSlot, State.slot, Vector.getElem_set, Fin.ext_iff]

@[simp] theorem setLine_line_self (s : State) (l : LineNo) (x : Line) : (s.setLine l x).line l = x := by
  simp [State.setLine, State.line]

theorem setLine_line (s : State) (l m : LineNo) (x : Line) : (s.setLine l x).line m = if l = m then x else s.line m := by
  simp [State.setLine, State.line, Vector.getElem_set, Fin.ext_iff]

@[simp] theorem setSensor_sensor_self (s : State) (i : SensorNo) (x : Sensor) : (s.setSensor i x).sensor i = x := by
  simp [State.setSensor, State.sensor]

theorem setSensor_sensor (s : State) (i j : SensorNo) (x : Sensor) :
    (s.setSensor i x).sensor j = if i = j then x else s.sensor j := by
  simp [State.setSensor, State.sensor, Vector.getElem_set, Fin.ext_iff]

@[simp] theorem setCustody_custody (s : State) (c : Custody) : (s.setCustody c).store.custody = c := rfl

@[simp] theorem setCustody_slots (s : State) (c : Custody) : (s.setCustody c).store.slots = s.store.slots := rfl

@[simp] theorem emptyGate_hand (s : State) : s.emptyGate.order.hand = s.order.hand := rfl

@[simp] theorem emptyGate_answer (s : State) : s.emptyGate.order.answer = s.order.answer := rfl

@[simp] theorem endStep_work (s : State) : s.endStep.core.work = .idle := rfl

@[simp] theorem endStep_queue (s : State) : s.endStep.core.queue = s.core.queue := rfl

@[simp] theorem updateRun_table (s : State) (n : Word) (f : Run → Run) :
    (s.updateRun n f).runs.table = s.runs.table.map fun r => if r.number == n then f r else r := rfl

@[simp] theorem updateRun_staging (s : State) (n : Word) (f : Run → Run) : (s.updateRun n f).runs.staging = s.runs.staging := rfl

end Sys2Proof.Machine
end

