-- ==== Sys2Proof/Laws/Offers.lean ====
section
/-! SUPPORT. What offering a notice may change (R172 to R175): the Report Unit's queue and its lost counter, and nothing else. -/

namespace Sys2Proof.Machine

/-- The unit is `u` but for the Notice Queue and the lost counter. -/
def NoticesOnly (u t : State) : Prop :=
  t = { u with report := { u.report with notices := t.report.notices, lost := t.report.lost } }

theorem NoticesOnly.refl (s : State) : NoticesOnly s s := rfl

theorem NoticesOnly.trans {s t u : State} (h : NoticesOnly s t) (k : NoticesOnly t u) : NoticesOnly s u := by
  rw [NoticesOnly] at *; rw [k, h]

theorem queueNotice_only (s : State) (m : Bytes) : NoticesOnly s (s.queueNotice m) := by
  unfold State.queueNotice; split <;> rfl

/-- An offered notice changes the Report Unit alone (R172). -/
theorem offer_only (k : NoticeKind) (v : Byte) (values : Bytes) (s : State) : NoticesOnly s (offer k v values s) := by
  unfold offer; split
  · exact queueNotice_only s _
  · exact .refl s

/-- An offered notice does one of three things: nothing, a place at the tail of the queue, or a count of one lost (R172 to R175). -/
theorem offer_cases (k : NoticeKind) (v : Byte) (values : Bytes) (s : State) :
    (offer k v values s = s ∧ (s.mainUp && s.noticeEnabled k) = false) ∨
      (∃ n : Notice, n.message = s.noticeMessage k v values ∧ n.tag = s.noticeTag n.message ∧ s.report.notices.length < 16 ∧
        offer k v values s = { s with report := { s.report with notices := s.report.notices ++ [n] } }) ∨
      (16 ≤ s.report.notices.length ∧
        offer k v values s = { s with report := { s.report with lost := bumpCounter max16 s.report.lost } }) := by
  unfold offer
  split
  · unfold State.queueNotice
    split
    · next h => exact .inr (.inl ⟨_, rfl, rfl, h, rfl⟩)
    · next h => exact .inr (.inr ⟨Nat.le_of_not_lt h, rfl⟩)
  · next h => exact .inl ⟨rfl, by simpa using h⟩

theorem foldl_only {α : Type} (f : State → α → State) (hf : ∀ s a, NoticesOnly s (f s a)) (xs : List α) (s : State) :
    NoticesOnly s (xs.foldl f s) := by
  induction xs generalizing s with
  | nil => exact .refl s
  | cons a rest ih => exact (hf s a).trans (ih (f s a))

/-- The LINE notices of an event change the Report Unit alone (R101). -/
theorem lineNotices_only (was s : State) : NoticesOnly s (lineNotices was s) := by
  refine foldl_only _ (fun t l => ?_) _ s
  split
  · exact .refl t
  · exact offer_only _ _ _ t

/-! Each field that notices leave as it is. -/

section
variable {u t : State} (h : NoticesOnly u t)
include h
theorem NoticesOnly.store : t.store = u.store := by rw [h]
theorem NoticesOnly.core : t.core = u.core := by rw [h]
theorem NoticesOnly.runs : t.runs = u.runs := by rw [h]
theorem NoticesOnly.recipes : t.recipes = u.recipes := by rw [h]
theorem NoticesOnly.engine : t.engine = u.engine := by rw [h]
theorem NoticesOnly.dispatch : t.dispatch = u.dispatch := by rw [h]
theorem NoticesOnly.link : t.link = u.link := by rw [h]
theorem NoticesOnly.order : t.order = u.order := by rw [h]
theorem NoticesOnly.tamper : t.tamper = u.tamper := by rw [h]
theorem NoticesOnly.time : t.time = u.time := by rw [h]
theorem NoticesOnly.power : t.power = u.power := by rw [h]
theorem NoticesOnly.free : t.free = u.free := by rw [h]
theorem NoticesOnly.pending : t.pending = u.pending := by rw [h]
theorem NoticesOnly.noticeMask : t.report.noticeMask = u.report.noticeMask := by rw [h]
theorem NoticesOnly.alarmMask : t.report.alarmMask = u.report.alarmMask := by rw [h]
end

@[simp] theorem offer_store (k : NoticeKind) (v : Byte) (x : Bytes) (s : State) : (offer k v x s).store = s.store := (offer_only k v x s).store
@[simp] theorem offer_core (k : NoticeKind) (v : Byte) (x : Bytes) (s : State) : (offer k v x s).core = s.core := (offer_only k v x s).core
@[simp] theorem offer_runs (k : NoticeKind) (v : Byte) (x : Bytes) (s : State) : (offer k v x s).runs = s.runs := (offer_only k v x s).runs
@[simp] theorem offer_recipes (k : NoticeKind) (v : Byte) (x : Bytes) (s : State) : (offer k v x s).recipes = s.recipes := (offer_only k v x s).recipes
@[simp] theorem offer_engine (k : NoticeKind) (v : Byte) (x : Bytes) (s : State) : (offer k v x s).engine = s.engine := (offer_only k v x s).engine
@[simp] theorem offer_dispatch (k : NoticeKind) (v : Byte) (x : Bytes) (s : State) : (offer k v x s).dispatch = s.dispatch := (offer_only k v x s).dispatch
@[simp] theorem offer_link (k : NoticeKind) (v : Byte) (x : Bytes) (s : State) : (offer k v x s).link = s.link := (offer_only k v x s).link
@[simp] theorem offer_order (k : NoticeKind) (v : Byte) (x : Bytes) (s : State) : (offer k v x s).order = s.order := (offer_only k v x s).order
@[simp] theorem offer_tamper (k : NoticeKind) (v : Byte) (x : Bytes) (s : State) : (offer k v x s).tamper = s.tamper := (offer_only k v x s).tamper
@[simp] theorem offer_time (k : NoticeKind) (v : Byte) (x : Bytes) (s : State) : (offer k v x s).time = s.time := (offer_only k v x s).time
@[simp] theorem offer_power (k : NoticeKind) (v : Byte) (x : Bytes) (s : State) : (offer k v x s).power = s.power := (offer_only k v x s).power
@[simp] theorem offer_free (k : NoticeKind) (v : Byte) (x : Bytes) (s : State) : (offer k v x s).free = s.free := (offer_only k v x s).free
@[simp] theorem offer_pending (k : NoticeKind) (v : Byte) (x : Bytes) (s : State) : (offer k v x s).pending = s.pending := (offer_only k v x s).pending

@[simp] theorem lineNotices_store (was s : State) : (lineNotices was s).store = s.store := (lineNotices_only was s).store
@[simp] theorem lineNotices_core (was s : State) : (lineNotices was s).core = s.core := (lineNotices_only was s).core
@[simp] theorem lineNotices_runs (was s : State) : (lineNotices was s).runs = s.runs := (lineNotices_only was s).runs
@[simp] theorem lineNotices_recipes (was s : State) : (lineNotices was s).recipes = s.recipes := (lineNotices_only was s).recipes
@[simp] theorem lineNotices_engine (was s : State) : (lineNotices was s).engine = s.engine := (lineNotices_only was s).engine
@[simp] theorem lineNotices_dispatch (was s : State) : (lineNotices was s).dispatch = s.dispatch := (lineNotices_only was s).dispatch
@[simp] theorem lineNotices_link (was s : State) : (lineNotices was s).link = s.link := (lineNotices_only was s).link
@[simp] theorem lineNotices_order (was s : State) : (lineNotices was s).order = s.order := (lineNotices_only was s).order
@[simp] theorem lineNotices_tamper (was s : State) : (lineNotices was s).tamper = s.tamper := (lineNotices_only was s).tamper
@[simp] theorem lineNotices_time (was s : State) : (lineNotices was s).time = s.time := (lineNotices_only was s).time
@[simp] theorem lineNotices_power (was s : State) : (lineNotices was s).power = s.power := (lineNotices_only was s).power
@[simp] theorem lineNotices_free (was s : State) : (lineNotices was s).free = s.free := (lineNotices_only was s).free
@[simp] theorem lineNotices_pending (was s : State) : (lineNotices was s).pending = s.pending := (lineNotices_only was s).pending

end Sys2Proof.Machine
end

