-- ==== Sys2Proof/Laws/Settle.lean ====
section
/-! SUPPORT. What the end of an event may change (R32): the sharing of the Cipher Core leaves everything else as it is, but for the
use of an IMPORT slot counted when a load's unwrap step is begun (R42). -/

namespace Sys2Proof.Machine

/-! ### Open choices -/

theorem putAt_perm {α : Type} (i : Nat) (x : α) (xs : List α) : (putAt i x xs).Perm (x :: xs) := by
  have h := List.take_append_drop i xs
  calc putAt i x xs = xs.take i ++ x :: xs.drop i := rfl
    _ |>.Perm (x :: (xs.take i ++ xs.drop i)) := List.perm_middle
    _ = x :: xs := by rw [h]

/-- An arrangement holds the same elements, each as often (log 4). -/
theorem arrange_perm {α : Type} (n : Nat) (xs : List α) : (arrange n xs).Perm xs := by
  induction xs generalizing n with
  | nil => exact .nil
  | cons x rest ih =>
    cases rest with
    | nil => exact .refl _
    | cons y rest => exact (putAt_perm _ x _).trans ((ih (n + 1)).cons x)

theorem mem_arrange {α : Type} {n : Nat} {x : α} {xs : List α} : x ∈ arrange n xs ↔ x ∈ xs := (arrange_perm n xs).mem_iff

/-! ### Agreement but for the Core -/

theorem SettlesTo.refl (s : State) : SettlesTo s s := rfl

theorem SettlesTo.trans {s t u : State} (h : SettlesTo s t) (k : SettlesTo t u) : SettlesTo s u := by
  rw [SettlesTo] at *; rw [k, h]

theorem presentSteps_settles (s : State) : SettlesTo s (presentSteps s) := rfl

theorem presentSteps_hand (s : State) : (presentSteps s).order = s.order := rfl

/-- An idle Core that begins a step which counts no use changes the Core alone (R32). -/
theorem beginStep_settles {s : State} (h : s.quietQueue) : SettlesTo s (beginStep s) := by
  unfold beginStep
  split
  · exact .refl s
  · split
    · next k rest hk =>
      have hc : k.counts = none := h k (by simp [hk])
      simp only [hc]; rfl
    · split <;> first | exact .refl s | rfl

theorem wantedStep_counts {s : State} (h : ∀ x l, s.order.hand = some x → x.handling ≠ .loading l) {u : KsUser} {k : KsStep}
    (hk : s.wantedStep u = some k) : k.counts = none := by
  cases u with
  | load =>
    cases hh : s.order.hand with
    | none => simp [State.wantedStep, hh] at hk
    | some x =>
      have hl := h x
      cases hx : x.handling with
      | checking key => simp [State.wantedStep, hh, hx] at hk; rw [← hk]
      | loading l => exact absurd hx (hl l hh)
      | _ => simp [State.wantedStep, hh, hx] at hk
  | verify =>
    cases hv : s.store.verify with
    | none => simp [State.wantedStep, hv] at hk
    | some v => simp [State.wantedStep, hv] at hk; rw [← hk]
  | order =>
    cases hh : s.order.hand with
    | none => simp [State.wantedStep, hh] at hk
    | some x =>
      cases hx : x.handling with
      | comparing n j => simp [State.wantedStep, hh, hx] at hk; rw [← hk]
      | answering m j => simp [State.wantedStep, hh, hx] at hk; rw [← hk]
      | _ => simp [State.wantedStep, hh, hx] at hk
  | report =>
    cases hj : s.noticeJob with
    | none => simp [State.wantedStep, hj] at hk
    | some j => simp [State.wantedStep, hj] at hk; rw [← hk]

/-- Presenting steps keeps the Key Store side's queue quiet while no load is in hand (R42). -/
theorem presentSteps_quietQueue {s : State} (h : s.quiet) : (presentSteps s).quietQueue := by
  intro k hk
  have hk' : k ∈ s.core.queue ++ arrange s.free s.newSteps := hk
  rcases List.mem_append.1 hk' with hq | ha
  · exact h.1 k hq
  · obtain ⟨u, -, hu⟩ := List.mem_filterMap.1 (mem_arrange.1 ha)
    split at hu
    · cases hu
    · exact wantedStep_counts h.2 hu

/-- The end of an event changes the Cipher Core alone, and the model's count of open choices, while no load's unwrap step waits
or is to be presented (R32, R42). -/
theorem settleCore_settles {s : State} (h : s.quiet) : SettlesTo s (settleCore s) :=
  ((presentSteps_settles s).trans (beginStep_settles (presentSteps_quietQueue h))).trans (presentSteps_settles _)

/-- A unit whose order in hand is not a load and whose waiting steps count no use is quiet. -/
theorem quiet_of {s : State} (hq : s.quietQueue) (hh : ∀ x l, s.order.hand = some x → x.handling ≠ .loading l) : s.quiet :=
  ⟨hq, hh⟩

/-! ### The answer -/

theorem buildAnswer_queue (h : OrderInHand) (r : OrderResult) (v : Bytes) (z : Bool) (s : State) :
    (buildAnswer h r v z s).core = s.core := by
  unfold buildAnswer; simp only []; split <;> rfl

theorem buildAnswer_not_loading {h : OrderInHand} {r : OrderResult} {v : Bytes} {z : Bool} {s : State} (x : OrderInHand)
    (l : Load) (hx : (buildAnswer h r v z s).order.hand = some x) : x.handling ≠ .loading l := by
  unfold buildAnswer at hx; simp only [] at hx
  split at hx <;> (simp only [Option.some.injEq] at hx; subst hx; simp)

/-- An answer built in a unit whose waiting steps count no use leaves it quiet. -/
theorem buildAnswer_quiet {h : OrderInHand} {r : OrderResult} {v : Bytes} {z : Bool} {s : State} (hq : s.quietQueue) :
    (buildAnswer h r v z s).quiet := by
  refine ⟨?_, buildAnswer_not_loading⟩
  simpa only [State.quietQueue, buildAnswer_queue] using hq

/-- What every answered order ends with: the answer, and the Core's sharing (R32, R151). -/
theorem settle_buildAnswer {h : OrderInHand} {r : OrderResult} {v : Bytes} {z : Bool} {s : State} (hq : s.quietQueue) :
    SettlesTo (buildAnswer h r v z s) (settleCore (buildAnswer h r v z s)) :=
  settleCore_settles (buildAnswer_quiet hq)

/-! ### A load in hand (R42) -/

/-- The unit with another sharing of the Core and another count of open choices. -/
def State.sharing (s : State) (c : CipherCore) (f : Nat) : State := { s with core := c, free := f }

/-- A notice does not depend on the Core's sharing. -/
theorem offer_sharing (k : NoticeKind) (v : Byte) (x : Bytes) (s : State) (c : CipherCore) (f : Nat) :
    offer k v x (s.sharing c f) = (offer k v x s).sharing c f := by
  have hs : (s.sharing c f).summary = s.summary := rfl
  have he : ((s.sharing c f).mainUp && (s.sharing c f).noticeEnabled k) = (s.mainUp && s.noticeEnabled k) := rfl
  have hr : (s.sharing c f).report = s.report := rfl
  unfold offer
  rw [he]
  split
  · unfold State.queueNotice State.noticeMessage
    rw [hs, hr]
    split <;> rfl
  · rfl

/-- The LINE notices of an event do not depend on the Core's sharing. -/
theorem lineNotices_sharing (was s : State) (c : CipherCore) (f g : Nat) :
    lineNotices (was.sharing c f) (s.sharing c g) = (lineNotices was s).sharing c g := by
  unfold lineNotices
  generalize List.finRange 8 = xs
  induction xs generalizing s with
  | nil => rfl
  | cons l xs ih =>
    have e : (if (was.sharing c f).reported l = (s.sharing c g).reported l then s.sharing c g
          else offerLine l ((was.sharing c f).reported l) (s.sharing c g)) =
        (if was.reported l = s.reported l then s else offerLine l (was.reported l) s).sharing c g := by
      rw [show (was.sharing c f).reported l = was.reported l from rfl, show (s.sharing c g).reported l = s.reported l from rfl]
      split
      · rfl
      · exact offer_sharing _ _ _ s c g
    simp only [List.foldl_cons]
    rw [e, ih]

/-- The count of an IMPORT slot's use does not depend on the Core's sharing. -/
theorem countUse_sharing (n : SlotNo) (s : State) (c : CipherCore) (f : Nat) :
    (s.sharing c f).countUse n = (s.countUse n).sharing c f := by
  unfold State.countUse
  simp only []
  rw [show (s.sharing c f).slot n = s.slot n from rfl]
  generalize ({ s.slot n with uses := bumpCounter max32 (s.slot n).uses } : Slot) = k
  rw [show (s.sharing c f).setSlot n k = (s.setSlot n k).sharing c f from rfl]
  generalize s.setSlot n k = u
  rw [show ((u.sharing c f).slot n).spent = (u.slot n).spent from rfl]
  split
  · rw [show (u.sharing c f).reportUnusable n = (u.reportUnusable n).sharing c f from rfl]
    exact lineNotices_sharing s (u.reportUnusable n) c f f
  · rfl

/-- What the end of an event does with a load that has its first step to present, the Core being idle: the step is begun, the use of an
IMPORT slot counted, or it waits and nothing but the Core changes (R32, R42). -/
theorem settleCore_load {u : State} {l : Load} {h : OrderInHand} (hh : u.order.hand = some h) (hl : h.handling = .loading l)
    (hq : u.quietQueue) (hn : ∀ k ∈ u.core.queue, k.user ≠ .load) (hw : u.core.work = .idle)
    (ha : ∀ m, l.step.counts = some m → (u.slot m).state = .active) :
    ((settleCore u).core.work = .keyStore l.step false ∨ l.step ∈ (settleCore u).core.queue) ∧
    (∀ m, (settleCore u).core.work = .keyStore l.step false → l.step.counts = some m →
      SettlesTo (u.countUse m) (settleCore u)) ∧
    ((settleCore u).core.work ≠ .keyStore l.step false ∨ l.step.counts = none → SettlesTo u (settleCore u)) := by
  generalize hp : presentSteps u = p
  have hps : p = u.sharing p.core p.free := by rw [← hp]; rfl
  have hpw : p.core.work = .idle := by rw [← hp]; exact hw
  have hpq : p.core.queue = u.core.queue ++ arrange u.free u.newSteps := by rw [← hp]; rfl
  have hwant : u.wantedStep .load = some l.step := by simp only [State.wantedStep, hh, Option.map_some, hl]
  have hout : u.outstanding .load = false := by
    simp only [State.outstanding, State.coreServes, hw, Bool.false_or, List.any_eq_false, decide_eq_true_eq]
    exact hn
  have hmem : l.step ∈ p.core.queue := by
    rw [hpq]
    refine List.mem_append.2 (.inr (mem_arrange.2 ?_))
    rw [State.newSteps, List.mem_filterMap]
    exact ⟨.load, by simp [KsUser.all], by rw [hout]; simpa using hwant⟩
  have hcount : ∀ k ∈ p.core.queue, k = l.step ∨ k.counts = none := by
    intro k hk
    rw [hpq] at hk
    rcases List.mem_append.1 hk with hk | hk
    · exact .inr (hq k hk)
    · obtain ⟨x, -, hx⟩ := List.mem_filterMap.1 (mem_arrange.1 hk)
      split at hx
      · cases hx
      · cases x with
        | load => rw [hwant] at hx; cases hx; exact .inl rfl
        | verify => cases hv : u.store.verify <;> simp [State.wantedStep, hv] at hx; right; rw [← hx]
        | report => cases hv : u.noticeJob <;> simp [State.wantedStep, hv] at hx; right; rw [← hx]
        | order => simp [State.wantedStep, hh, hl] at hx
  have ht : settleCore u = presentSteps (beginStep p) := by rw [← hp]; rfl
  have tw : (settleCore u).core.work = (beginStep p).core.work := by rw [ht]; rfl
  have ts : ∀ v, SettlesTo v (beginStep p) → SettlesTo v (settleCore u) := fun v hv => by
    rw [ht]; exact hv.trans (presentSteps_settles _)
  cases he : p.core.queue with
  | nil => rw [he] at hmem; cases hmem
  | cons k rest =>
    let c : CipherCore := { p.core with work := .keyStore k false, queue := rest }
    have hb : beginStep p =
        (match k.counts with
          | none => u.sharing c p.free
          | some n => if ((u.sharing c p.free).slot n).state = .active then (u.sharing c p.free).countUse n else u.sharing c p.free) := by
      unfold beginStep
      rw [if_neg (by simp [hpw]), he]
      rw [show u.sharing c p.free = p.sharing c p.free by rw [hps]; rfl]
      rfl
    rcases hcount k (by rw [he]; simp) with rfl | hk
    · cases hc : l.step.counts with
      | none =>
        simp only [hc] at hb
        have w : (settleCore u).core.work = .keyStore l.step false := by rw [tw, hb]; rfl
        exact ⟨.inl w, fun m _ hm => by simp at hm, fun _ => ts u (by rw [hb]; rfl)⟩
      | some m =>
        simp only [hc] at hb
        rw [if_pos (show ((u.sharing c p.free).slot m).state = .active from ha m hc), countUse_sharing] at hb
        have w : (settleCore u).core.work = .keyStore l.step false := by rw [tw, hb]; rfl
        refine ⟨.inl w, fun m' _ hm => ?_, fun hx => ?_⟩
        · cases hm; exact ts _ (by rw [hb]; rfl)
        · rcases hx with hx | hx
          · exact absurd w hx
          · simp at hx
    · simp only [hk] at hb
      have w : (settleCore u).core.work = .keyStore k false := by rw [tw, hb]; rfl
      refine ⟨?_, fun m hm hc => ?_, fun _ => ts u (by rw [hb]; rfl)⟩
      · rw [he] at hmem
        rcases List.mem_cons.1 hmem with e | e
        · left; rw [w, e]
        · right
          rw [ht]
          show l.step ∈ (beginStep p).core.queue ++ _
          rw [hb]; exact List.mem_append.2 (.inl e)
      · rw [w] at hm; cases hm
        rw [hk] at hc; cases hc

end Sys2Proof.Machine
end

