-- ==== Sys2Proof/Laws/Orders.lean ====
section
/-! SUPPORT. The decision of an order (R138 to R141, R148, R150), once for each way it may stand, for any order's own rule. -/

namespace Sys2Proof.Machine

@[simp] theorem startIdle_store (s : State) : s.startIdle.store = s.store := by unfold State.startIdle; split <;> rfl
@[simp] theorem startIdle_core (s : State) : s.startIdle.core = s.core := by unfold State.startIdle; split <;> rfl
@[simp] theorem startIdle_runs (s : State) : s.startIdle.runs = s.runs := by unfold State.startIdle; split <;> rfl
@[simp] theorem startIdle_recipes (s : State) : s.startIdle.recipes = s.recipes := by unfold State.startIdle; split <;> rfl
@[simp] theorem startIdle_engine (s : State) : s.startIdle.engine = s.engine := by unfold State.startIdle; split <;> rfl
@[simp] theorem startIdle_dispatch (s : State) : s.startIdle.dispatch = s.dispatch := by unfold State.startIdle; split <;> rfl
@[simp] theorem startIdle_link (s : State) : s.startIdle.link = s.link := by unfold State.startIdle; split <;> rfl
@[simp] theorem startIdle_order (s : State) : s.startIdle.order = s.order := by unfold State.startIdle; split <;> rfl
@[simp] theorem startIdle_tamper (s : State) : s.startIdle.tamper = s.tamper := by unfold State.startIdle; split <;> rfl
@[simp] theorem startIdle_report (s : State) : s.startIdle.report = s.report := by unfold State.startIdle; split <;> rfl
@[simp] theorem startIdle_time (s : State) : s.startIdle.time = s.time := by unfold State.startIdle; split <;> rfl
@[simp] theorem startIdle_free (s : State) : s.startIdle.free = s.free := by unfold State.startIdle; split <;> rfl
@[simp] theorem startIdle_pending (s : State) : s.startIdle.pending = s.pending := by unfold State.startIdle; split <;> rfl

theorem startIdle_supply (s : State) : s.startIdle.power.supply = s.power.supply := by unfold State.startIdle; split <;> rfl

@[simp] theorem acceptedState_order (h : OrderInHand) (s : State) : (acceptedState h s).order = s.order := by
  simp [acceptedState, State.endStep]

@[simp] theorem acceptedState_runs (h : OrderInHand) (s : State) : (acceptedState h s).runs = s.runs := by
  simp [acceptedState, State.endStep]

@[simp] theorem acceptedState_custody (h : OrderInHand) (s : State) :
    (acceptedState h s).store.custody = s.store.custody := by simp [acceptedState, State.endStep]

@[simp] theorem acceptedState_queue (h : OrderInHand) (s : State) : (acceptedState h s).core.queue = s.core.queue := by
  simp [acceptedState, State.endStep]

/-- The custody state is all that steps 1 to 3 of R140 read of the unit. -/
theorem screen_custody {rule : OrderRule} {h : OrderInHand} {s t : State} (e : t.store.custody = s.store.custody) :
    rule.screen h t = rule.screen h s := by simp [OrderRule.screen, e]

/-- An order that is accepted, or is a broadcast, makes steps 1 to 3 of R140 at its decision. -/
theorem verdict_screen {rule : OrderRule} {h : OrderInHand} {s : State} {st : Standing} (hs : s.standing h = some st)
    (hu : st ≠ .untagged) : rule.verdict h s = rule.screen h s := by
  unfold State.standing at hs
  unfold OrderRule.verdict
  cases hx : h.handling <;> simp_all

/-- The custody state is all that an order's verdict reads of the unit. -/
theorem verdict_custody {rule : OrderRule} {h : OrderInHand} {s t : State} (e : t.store.custody = s.store.custody) :
    rule.verdict h t = rule.verdict h s := by
  unfold OrderRule.verdict; cases h.handling <;> simp [screen_custody e]

/-- An order is accepted at the end of its tag's last step (R138). -/
theorem endDecisionStep_of_accepted {h : OrderInHand} {s : State} (hs : s.standing h = some .accepted) :
    s.endDecisionStep h = s.endStep := by
  unfold State.endDecisionStep
  unfold State.standing at hs
  cases hx : h.handling <;> simp_all
  split at hs <;> simp at hs

/-- An accepted order that passes R140 is decided by its own rule, on the unit with its number recorded and the idle timer started
(R139, R140, R148, R187). -/
theorem decideOrder_accepted {rule : OrderRule} {h : OrderInHand} {s : State} (a : Accepting rule h s) :
    decideOrder rule s =
      settleCore
        (afterTake h
          (dealWithGate rule.cls
            (rule.take { number := h.number, custodian := s.order.gate.custodian, params := h.params } (acceptedState h s)))) := by
  obtain ⟨⟨⟨hm, hh, hc, hs, -⟩, hscr⟩, hg⟩ := a
  rw [verdict_screen hs (by simp)] at hscr
  have hend := endDecisionStep_of_accepted hs
  have hmain : s.mainUp = true := by simp [State.mainUp, hm]
  simp only [decideOrder, hh, hmain, hc, hs, hend]
  simp only [Bool.not_true, Bool.or_self, Bool.false_eq_true, if_false, acceptOrder]
  rw [show (({ s.endStep with store := { s.endStep.store with lastOrder := h.number } } : State).startIdle) =
    acceptedState h s from rfl]
  rw [screen_custody (acceptedState_custody h s), hscr]
  simp [acceptedState_order, hg, need, checked, State.argsOf, bind, Except.bind]

/-- Any answer an accepted order gives, with the unit as its rule leaves it (R148, R151). -/
theorem accepted_answers {rule : OrderRule} {h : OrderInHand} {s u : State} {r : OrderResult} {v : Bytes}
    (a : Accepting rule h s) (hcls : rule.cls ≠ .grant)
    (ht : rule.take { number := h.number, custodian := s.order.gate.custodian, params := h.params } (acceptedState h s) =
      .answered r v u) (hu : u.quietQueue) :
    AnswersWith h r v u (decideOrder rule s) := by
  rw [decideOrder_accepted a, ht]
  simp only [dealWithGate, hcls, false_and, if_false, afterTake]
  exact settle_buildAnswer hu

theorem acceptedState_quiet {rule : OrderRule} {h : OrderInHand} {s : State} (a : Accepting rule h s) :
    (acceptedState h s).quietQueue := by
  intro k hk; rw [acceptedState_queue] at hk; exact a.handles.decides.quiet k hk

/-- An order handled untagged is decided by its own rule, on the unit with the check step ended (R141). -/
theorem decideOrder_untagged {rule : OrderRule} {h : OrderInHand} {s : State} (a : Handles rule h .untagged s) :
    decideOrder rule s =
      settleCore
        (afterTake h
          (rule.take { number := h.number, custodian := s.order.gate.custodian, params := h.params } (s.endDecisionStep h))) := by
  obtain ⟨⟨hm, hh, hc, hs, -⟩, hscr⟩ := a
  have hmain : s.mainUp = true := by simp [State.mainUp, hm]
  have hcu : (s.endDecisionStep h).store.custody = s.store.custody := by
    unfold State.endDecisionStep; split <;> rfl
  have ho : (s.endDecisionStep h).order = s.order := by
    unfold State.endDecisionStep; split <;> rfl
  simp only [decideOrder, hh, hmain, hc, hs]
  simp only [Bool.not_true, Bool.or_self, Bool.false_eq_true, if_false, takeUntagged]
  rw [verdict_custody hcu, hscr]
  simp [checked, State.argsOf, ho]

/-- Any answer an order handled untagged gives (R141, R151). -/
theorem untagged_answers {rule : OrderRule} {h : OrderInHand} {s u : State} {r : OrderResult} {v : Bytes}
    (a : Handles rule h .untagged s)
    (ht : rule.take { number := h.number, custodian := s.order.gate.custodian, params := h.params } (s.endDecisionStep h) =
      .answered r v u) (hu : u.quietQueue) :
    AnswersUntagged h r v u (decideOrder rule s) := by
  rw [decideOrder_untagged a, ht]
  exact settle_buildAnswer hu

/-- A broadcast is decided by its own rule, and starts the idle timer when it is carried out (R150, R187). -/
theorem decideOrder_broadcast {rule : OrderRule} {h : OrderInHand} {s : State} (a : Handles rule h .broadcast s) :
    decideOrder rule s =
      settleCore
        (afterTake h
          (broadcastIdle
            (rule.take { number := h.number, custodian := s.order.gate.custodian, params := h.params } s))) := by
  obtain ⟨⟨hm, hh, hc, hs, -⟩, hscr⟩ := a
  rw [verdict_screen hs (by simp)] at hscr
  have hmain : s.mainUp = true := by simp [State.mainUp, hm]
  have hx : s.endDecisionStep h = s := by
    unfold State.standing at hs; unfold State.endDecisionStep
    cases hx : h.handling <;> simp only [hx] at hs ⊢ <;> split_ifs at hs <;> simp_all
  simp only [decideOrder, hh, hmain, hc, hs, hx]
  simp only [Bool.not_true, Bool.or_self, Bool.false_eq_true, if_false, takeBroadcast]
  rw [hscr]
  simp [checked, State.argsOf]

/-- An order's row decides the order in hand by its rule. -/
theorem exec_order {i : Instr} {rule : OrderRule} (h : orderRule i = some rule) (s : State) :
    exec i s = .next (decideOrder rule s) := by
  cases i <;> simp only [orderRule, reduceCtorEq, Option.some.injEq] at h <;> (subst h; rfl)

/-- An order that fails authentication is answered BAD TAG and sets the flag TAG (R133, R138). -/
theorem decideOrder_badTag {rule : OrderRule} {h : OrderInHand} {s : State} (a : Decides rule h .badTag s) :
    SettlesTo (buildAnswer h .badTag [] true (s.endDecisionStep h).flagTag) (decideOrder rule s) := by
  obtain ⟨hm, hh, hc, hs, hq⟩ := a
  have hmain : s.mainUp = true := by simp [State.mainUp, hm]
  have hq' : (s.endDecisionStep h).flagTag.quietQueue := by
    intro k hk; refine hq k ?_; unfold State.endDecisionStep at hk; split at hk <;> exact hk
  simp only [decideOrder, hh, hmain, hc, hs]
  exact settle_buildAnswer hq'

/-- An order whose number is not above the last accepted is answered STALE NUMBER and sets the flag NUMBER (R133, R139). -/
theorem decideOrder_stale {rule : OrderRule} {h : OrderInHand} {s : State} (a : Decides rule h .stale s) :
    SettlesTo (buildAnswer h .staleNumber [] true (s.endDecisionStep h).flagNumber) (decideOrder rule s) := by
  obtain ⟨hm, hh, hc, hs, hq⟩ := a
  have hmain : s.mainUp = true := by simp [State.mainUp, hm]
  have hq' : (s.endDecisionStep h).flagNumber.quietQueue := by
    intro k hk; refine hq k ?_; unfold State.endDecisionStep at hk; split at hk <;> exact hk
  simp only [decideOrder, hh, hmain, hc, hs]
  exact settle_buildAnswer hq'

/-- An accepted order that a check of R140 refuses is answered with that refusal on the unit as acceptance leaves it (R152). -/
theorem decideOrder_checks {rule : OrderRule} {h : OrderInHand} {s : State} {r : OrderResult}
    (a : Decides rule h .accepted s)
    (e : (do rule.screen h s; need (s.order.gate.satisfies h.number rule.cls) .gate) = .error r) (hr : r ≠ .done) :
    AnswersWith h r [] (acceptedState h s) (decideOrder rule s) := by
  obtain ⟨hm, hh, hc, hs, hq⟩ := a
  have hmain : s.mainUp = true := by simp [State.mainUp, hm]
  have hend := endDecisionStep_of_accepted hs
  have hq' : (acceptedState h s).emptyGate.quietQueue := by
    intro k hk; refine hq k ?_
    change k ∈ (acceptedState h s).core.queue at hk; simpa using hk
  simp only [decideOrder, hh, hmain, hc, hs, hend, Bool.not_true, Bool.or_self, Bool.false_eq_true, if_false, acceptOrder]
  rw [show (({ s.endStep with store := { s.endStep.store with lastOrder := h.number } } : State).startIdle) =
    acceptedState h s from rfl]
  rw [screen_custody (acceptedState_custody h s), acceptedState_order, e]
  simp only [checked, refused, dealWithGate, hr, and_false, if_false, afterTake]
  exact settle_buildAnswer hq'

/-! ### What acceptance leaves as it is -/

@[simp] theorem acceptedState_dispatch (h : OrderInHand) (s : State) : (acceptedState h s).dispatch = s.dispatch := by
  simp [acceptedState, State.endStep]

@[simp] theorem acceptedState_link (h : OrderInHand) (s : State) : (acceptedState h s).link = s.link := by
  simp [acceptedState, State.endStep]

@[simp] theorem acceptedState_report (h : OrderInHand) (s : State) : (acceptedState h s).report = s.report := by
  simp [acceptedState, State.endStep]

@[simp] theorem acceptedState_recipes (h : OrderInHand) (s : State) : (acceptedState h s).recipes = s.recipes := by
  simp [acceptedState, State.endStep]

@[simp] theorem acceptedState_tamper (h : OrderInHand) (s : State) : (acceptedState h s).tamper = s.tamper := by
  simp [acceptedState, State.endStep]

@[simp] theorem acceptedState_time (h : OrderInHand) (s : State) : (acceptedState h s).time = s.time := by
  simp [acceptedState, State.endStep]

@[simp] theorem acceptedState_engine (h : OrderInHand) (s : State) : (acceptedState h s).engine = s.engine := by
  simp [acceptedState, State.endStep]

@[simp] theorem acceptedState_pending (h : OrderInHand) (s : State) : (acceptedState h s).pending = s.pending := by
  simp [acceptedState, State.endStep]

@[simp] theorem acceptedState_slot (h : OrderInHand) (s : State) (n : SlotNo) : (acceptedState h s).slot n = s.slot n := by
  simp [acceptedState, State.slot, State.endStep]

@[simp] theorem acceptedState_settling (h : OrderInHand) (s : State) : (acceptedState h s).isSettling = s.isSettling := by
  simp only [acceptedState, State.startIdle]; split <;> rfl

@[simp] theorem acceptedState_busy (h : OrderInHand) (s : State) : (acceptedState h s).busy = s.busy := by
  simp only [acceptedState, State.startIdle]; split <;> rfl

@[simp] theorem acceptedState_suspended (h : OrderInHand) (s : State) : (acceptedState h s).suspended = s.suspended := by
  simp only [acceptedState, State.startIdle]; split <;> rfl

@[simp] theorem acceptedState_mainUp (h : OrderInHand) (s : State) : (acceptedState h s).mainUp = s.mainUp := by
  simp only [acceptedState, State.startIdle]; split <;> rfl

/-- A unit with the same waiting steps is as quiet (R42). -/
theorem quietQueue_of_queue {s t : State} (h : s.quietQueue) (e : t.core.queue = s.core.queue) : t.quietQueue := by
  intro k hk; rw [e] at hk; exact h k hk

/-! ### One theorem for each way an order's row answers -/

/-- The row of an accepted order answers what its own rule answers (R140, R148, R151). -/
theorem accepted_row {i : Instr} {rule : OrderRule} {h : OrderInHand} {s u : State} {r : OrderResult} {v : Bytes}
    (hi : orderRule i = some rule) (a : Accepting rule h s) (hc : rule.cls ≠ .grant) (hu : u.quietQueue)
    (ht : rule.take { number := h.number, custodian := s.order.gate.custodian, params := h.params } (acceptedState h s) =
      .answered r v u) :
    ∃ t, exec i s = .next t ∧ AnswersWith h r v u t := ⟨_, exec_order hi s, accepted_answers a hc ht hu⟩

/-- The row of an order handled untagged answers what its own rule answers (R141, R151). -/
theorem untagged_row {i : Instr} {rule : OrderRule} {h : OrderInHand} {s u : State} {r : OrderResult} {v : Bytes}
    (hi : orderRule i = some rule) (a : Handles rule h .untagged s) (hu : u.quietQueue)
    (ht : rule.take { number := h.number, custodian := s.order.gate.custodian, params := h.params } (s.endDecisionStep h) =
      .answered r v u) :
    ∃ t, exec i s = .next t ∧ AnswersUntagged h r v u t := ⟨_, exec_order hi s, untagged_answers a ht hu⟩

/-- The row of an accepted loading order that passes its checks: the gate is emptied, the order waits, and its unwrap step is begun or
waits (R12, R15, R32, R42). -/
theorem held_row {i : Instr} {rule : OrderRule} {h : OrderInHand} {s : State} {l : Load} (hi : orderRule i = some rule)
    (a : Accepting rule h s) (hc : CoreTidy s)
    (ht : rule.take { number := h.number, custodian := s.order.gate.custodian, params := h.params } (acceptedState h s) =
      .held l (acceptedState h s))
    (ha : ∀ m, l.step.counts = some m → (s.slot m).state = .active) :
    let u := { acceptedState h s with
      order := { (acceptedState h s).order with
        gate := { grants := [], deadline := none }, hand := some { h with handling := .loading l } } }
    ∃ t, exec i s = .next t ∧ (t.core.work = .keyStore l.step false ∨ l.step ∈ t.core.queue) ∧
      (∀ m, t.core.work = .keyStore l.step false → l.step.counts = some m → SettlesTo (u.countUse m) t) ∧
      (t.core.work ≠ .keyStore l.step false ∨ l.step.counts = none → SettlesTo u t) := by
  intro u
  have hd := a.handles.decides
  have uq : u.core.queue = s.core.queue := by show (acceptedState h s).core.queue = _; simp
  refine ⟨settleCore u, by rw [exec_order hi, decideOrder_accepted a, ht]; rfl, ?_⟩
  refine settleCore_load (h := { h with handling := .loading l }) rfl rfl ?_ ?_ ?_ ?_
  · exact quietQueue_of_queue hd.quiet uq
  · intro k hk hu
    rw [uq] at hk
    obtain ⟨x, e, hx⟩ := hc.loads k hk hu
    rw [hd.hand] at e; cases e
    have hs := hd.standing
    unfold State.standing at hs
    rcases hx with ⟨y, hy⟩ | ⟨key, hy⟩ <;> simp only [hy] at hs
    · cases hs
    · split at hs <;> cases hs
  · show (acceptedState h s).core.work = _
    simp [acceptedState, State.endStep]
  · intro m hm
    show ((acceptedState h s).slot m).state = _
    rw [acceptedState_slot]; exact ha m hm

end Sys2Proof.Machine
end

