-- ==== Sys2Proof/Laws/Engine.lean ====
section
/-! SUPPORT. What the engine's walk and its takes leave as they are (R89 to R96): the Key Store side's queue and its step, the Order
Unit, and all but the parts a record passes through. -/

namespace Sys2Proof.Machine

/-- What no walk and no take touches. -/
structure Apart (u t : State) : Prop where
  queue : t.core.queue = u.core.queue
  work : t.core.work = u.core.work
  recipes : t.recipes = u.recipes
  link : t.link = u.link
  order : t.order = u.order
  tamper : t.tamper = u.tamper
  time : t.time = u.time
  power : t.power = u.power
  free : t.free = u.free
  pending : t.pending = u.pending
  custody : t.store.custody = u.store.custody

theorem Apart.refl (s : State) : Apart s s := ⟨rfl, rfl, rfl, rfl, rfl, rfl, rfl, rfl, rfl, rfl, rfl⟩

theorem Apart.trans {s t u : State} (h : Apart s t) (k : Apart t u) : Apart s u :=
  ⟨k.1.trans h.1, k.2.trans h.2, k.3.trans h.3, k.4.trans h.4, k.5.trans h.5, k.6.trans h.6, k.7.trans h.7, k.8.trans h.8,
    k.9.trans h.9, k.10.trans h.10, k.11.trans h.11⟩

theorem NoticesOnly.apart {u t : State} (h : NoticesOnly u t) : Apart u t := by
  rw [h]; exact ⟨rfl, rfl, rfl, rfl, rfl, rfl, rfl, rfl, rfl, rfl, rfl⟩

theorem offer_apart (k : NoticeKind) (v : Byte) (x : Bytes) (s : State) : Apart s (offer k v x s) := (offer_only k v x s).apart

theorem updateRun_apart (n : Word) (f : Run → Run) (s : State) : Apart s (s.updateRun n f) :=
  ⟨rfl, rfl, rfl, rfl, rfl, rfl, rfl, rfl, rfl, rfl, rfl⟩

theorem countUse_apart (n : SlotNo) (s : State) : Apart s (s.countUse n) := by
  unfold State.countUse
  simp only []
  split
  · refine Apart.trans ?_ (lineNotices_only _ _).apart
    exact ⟨rfl, rfl, rfl, rfl, rfl, rfl, rfl, rfl, rfl, rfl, rfl⟩
  · exact ⟨rfl, rfl, rfl, rfl, rfl, rfl, rfl, rfl, rfl, rfl, rfl⟩

theorem requestUse_apart (n : SlotNo) (u : UseKind) (s : State) : Apart s (requestUse n u s).2 := by
  unfold requestUse
  simp only []
  split_ifs <;> first | exact .refl s | exact offer_apart _ _ _ s | exact countUse_apart n s

theorem requestStep_apart (w : Work) (n : Option SlotNo) (u : UseKind) (f : Block → Waiting × CipherStep) (s : State) :
    Apart s (requestStep w n u f s).2 := by
  cases n with
  | none => exact .refl s
  | some n =>
    have h := requestUse_apart n u s
    unfold requestStep
    rcases hr : requestUse n u s with ⟨_ | _, t⟩ <;> simpa [hr] using h

theorem walk_apart (xs : List ActionInst) (w : Work) (s : State) : Apart s (walk xs w s).2 := by
  induction xs generalizing w s with
  | nil => exact .refl s
  | cons a rest ih =>
    unfold walk
    simp only []
    split
    · split
      · exact .refl s
      · exact ih _ s
    · split
      · exact .refl s
      · exact requestStep_apart _ _ _ _ s
    · split
      · split
        · exact ih _ s
        · exact .refl s
      · split
        · exact .refl s
        · exact ih _ s
    · split
      · split
        · exact ih _ s
        · exact .refl s
      · split
        · exact .refl s
        · split
          · exact .refl s
          · exact requestStep_apart _ _ _ _ s
    · split
      · split
        · exact ih _ s
        · exact .refl s
      · split
        · exact .refl s
        · split
          · exact .refl s
          · exact requestStep_apart _ _ _ _ s

theorem finishInstance_apart (v : Bytes) (w : Work) (s : State) : Apart s (finishInstance v w s).2 := by
  unfold finishInstance; split <;> exact walk_apart _ _ s

theorem resume_apart (v : Block) (w : Work) (s : State) : Apart s (resume v w s).2 := by
  unfold resume
  split
  · exact requestStep_apart _ _ _ _ s
  · exact .refl s
  · exact finishInstance_apart _ _ s
  · exact requestStep_apart _ _ _ _ s
  · exact finishInstance_apart _ _ s
  · exact requestStep_apart _ _ _ _ s
  · split
    · exact finishInstance_apart _ _ s
    · exact .refl s

theorem closeTest_apart (n : Word) (s : State) : Apart s (closeTest n s) := by
  unfold closeTest
  split
  · exact .refl s
  · split
    · unfold State.changeRun; simp only []
      split
      · exact updateRun_apart _ _ s
      · exact (updateRun_apart _ _ s).trans (offer_apart _ _ _ _)
    · exact .refl s

theorem advanceRun_apart (n : Word) (s : State) : Apart s (advanceRun n s) := by
  unfold advanceRun; simp only []
  split
  · exact updateRun_apart _ _ s
  · split
    · refine (updateRun_apart n Run.advance s).trans ?_
      unfold State.changeRun; simp only []
      split
      · exact updateRun_apart _ _ _
      · exact (updateRun_apart _ _ _).trans (offer_apart _ _ _ _)
    · exact updateRun_apart _ _ s

theorem failRecord_apart (w : Work) (x : FailReason) (s : State) : Apart s (failRecord w x s) := by
  unfold failRecord; simp only []
  refine Apart.trans ?_ (closeTest_apart _ _)
  refine Apart.trans ?_ (offer_apart _ _ _ _)
  exact ⟨rfl, rfl, rfl, rfl, rfl, rfl, rfl, rfl, rfl, rfl, rfl⟩

theorem completeRecord_apart (w : Work) (s : State) : Apart s (completeRecord w s) := by
  unfold completeRecord; simp only []
  refine Apart.trans ?_ (closeTest_apart _ _)
  exact ⟨rfl, rfl, rfl, rfl, rfl, rfl, rfl, rfl, rfl, rfl, rfl⟩

theorem endWalk_apart (e : WalkEnd × State) : Apart e.2 (endWalk e) := by
  unfold endWalk
  split
  · exact ⟨rfl, rfl, rfl, rfl, rfl, rfl, rfl, rfl, rfl, rfl, rfl⟩
  · exact failRecord_apart _ _ _
  · exact completeRecord_apart _ _

theorem takeRecord_apart (x : StagedRecord) (r : Run) (l : LineNo) (k : SlotNo) (s : State) :
    Apart s (takeRecord x r l k s) := by
  unfold takeRecord; simp only []
  refine Apart.trans ?_ (endWalk_apart _)
  refine Apart.trans ?_ (walk_apart _ _ _)
  exact ⟨rfl, rfl, rfl, rfl, rfl, rfl, rfl, rfl, rfl, rfl, rfl⟩

/-- The takes of an event leave the Key Store side of the Core, the Order Unit, the link, the monitor, the clocks, the power and
the custody state as they are (R91). -/
theorem engineTake_apart (s : State) : Apart s (engineTake s) := by
  unfold engineTake
  generalize s.runs.staging.length = n
  induction n generalizing s with
  | zero => exact .refl s
  | succ n ih =>
    unfold takeLoop
    split
    · exact .refl s
    · split
      · exact .refl s
      · exact (takeRecord_apart _ _ _ _ s).trans (ih _)

theorem Apart.quietQueue {u t : State} (h : Apart u t) (hq : u.quietQueue) : t.quietQueue := by
  intro k hk; rw [h.queue] at hk; exact hq k hk

theorem Apart.quiet {u t : State} (h : Apart u t) (hq : u.quiet) : t.quiet :=
  ⟨h.quietQueue hq.1, by rw [h.order]; exact hq.2⟩

/-- An event that ends with the engine's takes and the Core's sharing (R91, R32). -/
theorem settleUnit_settles {s : State} (h : s.quiet) : SettlesTo (engineTake s) (settleUnit s) :=
  settleCore_settles ((engineTake_apart s).quiet h)

/-! ### What a closing test, a failure and a walk leave -/

/-- The closing test changes the Run Table and offers notices, and nothing else (R72). -/
theorem closeTest_only (n : Word) (s : State) :
    ∃ table report, closeTest n s = { s with runs := { s.runs with table := table }, report := report } := by
  unfold closeTest
  split
  · exact ⟨_, _, rfl⟩
  · split
    · unfold State.changeRun; simp only []
      split
      · exact ⟨_, s.report, rfl⟩
      · simp only [offerRun]
        rw [offer_only]
        exact ⟨_, _, rfl⟩
    · exact ⟨_, _, rfl⟩

theorem closeTest_staging (n : Word) (s : State) : (closeTest n s).runs.staging = s.runs.staging := by
  obtain ⟨table, report, h⟩ := closeTest_only n s
  rw [h]

/-- A failed record leaves the engine IDLE, gives its reservation back, and changes beside these the Run Table and the notices alone
(R95). -/
theorem failRecord_only (w : Work) (x : FailReason) (s : State) :
    ∃ table report, failRecord w x s =
      { s with
        engine := none
        dispatch := { s.dispatch with
          lines := s.dispatch.lines.set w.line.val { s.line w.line with occupied := (s.line w.line).occupied - 1 } }
        runs := { s.runs with table := table }
        report := report } := by
  unfold failRecord offerFailure
  simp only []
  generalize hu : State.updateRun _ _ _ = u
  generalize be32 w.run.toNat ++ be32 w.seq.toNat ++ [byteOf w.actionNumber, x.code] = v
  obtain ⟨table, report, h⟩ := closeTest_only w.run (offer .failure x.code v u)
  rw [h, offer_only .failure x.code v u, ← hu]
  exact ⟨table, report, rfl⟩

/-- The Staging Queue is as it was (R60). -/
theorem countUse_staging (n : SlotNo) (s : State) : (s.countUse n).runs.staging = s.runs.staging := by
  unfold State.countUse; simp only []; split
  · simp [State.reportUnusable]
  · rfl

theorem requestStep_staging (w : Work) (n : Option SlotNo) (u : UseKind) (f : Block → Waiting × CipherStep) (s : State) :
    (requestStep w n u f s).2.runs.staging = s.runs.staging := by
  cases n with
  | none => rfl
  | some n =>
    have h : (requestUse n u s).2.runs.staging = s.runs.staging := by
      unfold requestUse; simp only []; split_ifs <;> simp [offerKey, countUse_staging]
    unfold requestStep
    simp only []
    split <;> simp_all

theorem walk_staging (xs : List ActionInst) (w : Work) (s : State) : (walk xs w s).2.runs.staging = s.runs.staging := by
  induction xs generalizing w s with
  | nil => rfl
  | cons a rest ih =>
    unfold walk
    simp only []
    split <;> (try split) <;> (try split) <;> (try split) <;>
      first | rfl | exact ih _ _ | exact requestStep_staging _ _ _ _ _

theorem failRecord_staging (w : Work) (x : FailReason) (s : State) : (failRecord w x s).runs.staging = s.runs.staging := by
  obtain ⟨table, report, h⟩ := failRecord_only w x s
  rw [h]

theorem completeRecord_staging (w : Work) (s : State) : (completeRecord w s).runs.staging = s.runs.staging := by
  unfold completeRecord; rw [closeTest_staging]; rfl

/-- The end of a walk leaves the Staging Queue as it was (R92, R93, R95). -/
theorem endWalk_staging (e : WalkEnd × State) : (endWalk e).runs.staging = e.2.runs.staging := by
  unfold endWalk
  split
  · rfl
  · exact failRecord_staging _ _ _
  · exact completeRecord_staging _ _

/-- An event's takes: the next record is taken, and the takes go on from there; each removes one staged record (R91). -/
theorem engineTake_of_next {s : State} {x : StagedRecord} {r : Run} {l : LineNo} {key : SlotNo} (he : s.engine = none)
    (hn : s.nextTake = some (x, r, l, key)) (hx : x ∈ s.runs.staging) :
    engineTake s = engineTake (takeRecord x r l key s) := by
  have hlen : s.runs.staging.length = (s.runs.staging.erase x).length + 1 := by
    have := List.length_pos_of_mem hx
    rw [List.length_erase_of_mem hx]; omega
  have hst : (takeRecord x r l key s).runs.staging = s.runs.staging.erase x :=
    (endWalk_staging _).trans (walk_staging _ _ _)
  unfold engineTake
  rw [hst, hlen]
  show (if s.engine.isSome then s else _) = _
  simp only [he, hn]; rfl

end Sys2Proof.Machine
end

