-- ==== Sys2Proof/Laws/Operands.lean ====
section
/-! SUPPORT. What an operand's byte is read as, once for each form (12.2, R2, R189). -/

namespace Sys2Proof.Machine

theorem slotOf_eq {b : Byte} {n : SlotNo} (h : b.toNat = n.val) : slotOf b = .ok n := by
  have hb : b.toNat < 64 := by omega
  simp only [slotOf, dif_pos hb]; congr 1; exact Fin.ext h

theorem slotOf_high {b : Byte} (h : 64 ≤ b.toNat) : slotOf b = .error .noSuch := by
  simp only [slotOf, dif_neg (Nat.not_lt.2 h)]

theorem generalSlotOf_eq {b : Byte} {n : SlotNo} (h : b.toNat = n.val) (h7 : 7 ≤ n.val) : generalSlotOf b = .ok n := by
  simp [generalSlotOf, slotOf_eq h, need, h7, bind, Except.bind, pure, Except.pure]

theorem generalSlotOf_high {b : Byte} (h : 64 ≤ b.toNat) : generalSlotOf b = .error .noSuch := by
  simp [generalSlotOf, slotOf_high h, bind, Except.bind]

theorem generalSlotOf_low {b : Byte} (h : b.toNat < 7) : generalSlotOf b = .error .range := by
  have e : slotOf b = .ok ⟨b.toNat, by omega⟩ := slotOf_eq rfl
  have h7 : ¬7 ≤ b.toNat := by omega
  simp [generalSlotOf, e, need, h7, bind, Except.bind]

theorem classOf_code (c : KeyClass) : classOf c.code = .ok c := by cases c <;> rfl

theorem classOf_other {b : Byte} (h : 6 ≤ b.toNat) : classOf b = .error .range := by
  have hne : ∀ c : Nat, c < 6 → b ≠ BitVec.ofNat 8 c := by
    rintro c hc rfl; simp at h; omega
  simp [classOf, keyClassOf, hne 0 (by omega), hne 1 (by omega), hne 2 (by omega), hne 3 (by omega), hne 4 (by omega),
    hne 5 (by omega)]

theorem flagOf_flagByte (x : Bool) : flagOf (flagByte x) = .ok x := by cases x <;> rfl

theorem lineOf_eq {b : Byte} {l : LineNo} (h : b.toNat = l.val) : lineOf b = .ok l := by
  have hb : b.toNat < 8 := by omega
  simp only [lineOf, dif_pos hb]; congr 1; exact Fin.ext h

theorem lineOf_high {b : Byte} (h : 8 ≤ b.toNat) : lineOf b = .error .noSuch := by
  simp only [lineOf, dif_neg (Nat.not_lt.2 h)]

theorem groupOf_eq {b : Byte} {g : GroupNo} (h : b.toNat = g.val) : groupOf b = .ok g := by
  have hb : b.toNat < 4 := by omega
  simp only [groupOf, dif_pos hb]; congr 1; exact Fin.ext h

theorem groupOf_high {b : Byte} (h : 4 ≤ b.toNat) : groupOf b = .error .range := by
  simp only [groupOf, dif_neg (Nat.not_lt.2 h)]

theorem recipeOf_eq {b : Byte} {n : RecipeNo} (h : b.toNat = n.val) : recipeOf b = .ok n := by
  have hb : b.toNat < 32 := by omega
  simp only [recipeOf, dif_pos hb]; congr 1; exact Fin.ext h

theorem sensorOf_eq {b : Byte} {i : SensorNo} (h : b.toNat = i.val) : sensorOf b = .ok i := by
  have hb : b.toNat < 6 := by omega
  simp only [sensorOf, dif_pos hb]; congr 1; exact Fin.ext h

theorem polarityOf_code (p : Polarity) : polarityOf p.code = .ok p := by cases p <;> rfl

theorem modeOf_code (m : SensorMode) : modeOf m.code = .ok m := by cases m <;> rfl

theorem tamperActionOf_code (a : TamperAction) : tamperActionOf a.code = .ok a := by cases a <;> rfl

end Sys2Proof.Machine
end

