-- ==== Sys2Proof/Laws/Runs.lean ====
section
/-! SUPPORT. What the operations of the Run Controller may do to the run they name (R54 to R73), run numbers being unique in the table
(R43): the closing test, the advance of the low mark, the withdrawal of a run's staged records. -/

namespace Sys2Proof.Machine

/-! ### One run of the table -/

theorem run_mem {s : State} {n : Word} {r : Run} (h : s.run n = some r) : r ∈ s.runs.table ∧ r.number = n :=
  ⟨List.mem_of_find?_eq_some h, by simpa using List.find?_some h⟩

/-- The run of a number is the one in the table that bears it (R43). -/
theorem run_of_mem {s : State} {r : Run} (hn : (s.runs.table.map Run.number).Nodup) (hr : r ∈ s.runs.table) :
    s.run r.number = some r := by
  simp only [State.run]
  cases hf : s.runs.table.find? fun x => x.number == r.number with
  | none => have := List.find?_eq_none.1 hf r hr; simp at this
  | some x =>
    have h2 : x.number = r.number := by simpa using List.find?_some hf
    rw [List.inj_on_of_nodup_map hn (List.mem_of_find?_eq_some hf) hr h2]

/-- The unit with one run of the table replaced by another. -/
def State.putRun (s : State) (n : Word) (y : Run) : State :=
  { s with runs := { s.runs with table := s.runs.table.map fun z => if z.number = n then y else z } }

/-- A change of the run of a number is its replacement by what it is changed to (R43). -/
theorem updateRun_eq {s : State} {r : Run} (hn : (s.runs.table.map Run.number).Nodup) (hr : r ∈ s.runs.table) (f : Run → Run) :
    s.updateRun r.number f = s.putRun r.number (f r) := by
  have h : (s.runs.table.map fun x => if x.number == r.number then f x else x) =
      s.runs.table.map fun x => if x.number = r.number then f r else x := by
    apply List.map_congr_left
    intro x hx
    by_cases e : x.number = r.number
    · rw [List.inj_on_of_nodup_map hn hx hr e]; simp
    · simp [e]
  simp only [State.updateRun, State.putRun, h]

theorem putRun_numbers {s : State} {y : Run} :
    (s.putRun y.number y).runs.table.map Run.number = s.runs.table.map Run.number := by
  simp only [State.putRun, List.map_map]
  apply List.map_congr_left
  intro x _
  by_cases e : x.number = y.number <;> simp [e]

theorem mem_putRun {s : State} {r y : Run} (hr : r ∈ s.runs.table) (e : y.number = r.number) : y ∈ (s.putRun y.number y).runs.table :=
  List.mem_map.2 ⟨r, hr, by simp [e]⟩

theorem putRun_putRun {s : State} {y z : Run} (e : z.number = y.number) :
    (s.putRun y.number y).putRun z.number z = s.putRun z.number z := by
  have : ((s.runs.table.map fun x => if x.number = y.number then y else x).map fun x => if x.number = z.number then z else x) =
      s.runs.table.map fun x => if x.number = z.number then z else x := by
    rw [List.map_map]; apply List.map_congr_left
    intro x _
    by_cases h : x.number = y.number <;> simp [h, e]
  simp only [State.putRun, this]

@[simp] theorem putRun_store (s : State) (n : Word) (y : Run) : (s.putRun n y).store = s.store := rfl
@[simp] theorem putRun_core (s : State) (n : Word) (y : Run) : (s.putRun n y).core = s.core := rfl
@[simp] theorem putRun_dispatch (s : State) (n : Word) (y : Run) : (s.putRun n y).dispatch = s.dispatch := rfl
@[simp] theorem putRun_staging (s : State) (n : Word) (y : Run) : (s.putRun n y).runs.staging = s.runs.staging := rfl

/-! ### The low mark -/

/-- The advance of the low mark changes the mark and the ring alone (R56). -/
theorem advanceLow_only (k : Nat) (r : Run) :
    r.advanceLow k = { r with low := (r.advanceLow k).low, window := (r.advanceLow k).window } := by
  induction k generalizing r with
  | zero => rfl
  | succ k ih =>
    unfold Run.advanceLow
    split
    · rw [ih]; rfl
    · rfl

theorem advance_only (r : Run) : r.advance = { r with low := r.advance.low, window := r.advance.window } := advanceLow_only 64 r

@[simp] theorem advance_number (r : Run) : r.advance.number = r.number := by rw [advance_only]
@[simp] theorem advance_quantity (r : Run) : r.advance.quantity = r.quantity := by rw [advance_only]
@[simp] theorem advance_state (r : Run) : r.advance.state = r.state := by rw [advance_only]

/-- The change of a run and the notice that follows from it, given the record it becomes. -/
theorem changeRun_eq {s : State} {r : Run} (hn : (s.runs.table.map Run.number).Nodup) (hr : r ∈ s.runs.table) {f : Run → Run}
    (hf : (f r).number = r.number) (tell : Run → State → State) :
    s.changeRun r.number f tell = tell (f r) (s.putRun r.number (f r)) := by
  have h := run_of_mem (s := s.putRun r.number (f r)) (r := f r)
    (by rw [← hf, putRun_numbers]; exact hn) (by rw [← hf]; exact mem_putRun hr hf)
  rw [hf] at h
  simp only [State.changeRun, updateRun_eq hn hr, h]

/-- The advance of a run's low mark: the mark moves on, and at Q a run that is not CLOSED completes (R56, R70). -/
theorem advanceRun_eq {s : State} {r : Run} (hn : (s.runs.table.map Run.number).Nodup) (hr : r ∈ s.runs.table) :
    advanceRun r.number s =
      if r.advance.low = r.quantity ∧ r.state ≠ .closed then
        offerRun .completed r.advance.completed (s.putRun r.number r.advance.completed)
      else s.putRun r.number r.advance := by
  have hn' : ((s.putRun r.number r.advance).runs.table.map Run.number).Nodup := by
    rw [← advance_number r, putRun_numbers]; exact hn
  have hr' : r.advance ∈ (s.putRun r.number r.advance).runs.table := by
    rw [← advance_number r]; exact mem_putRun hr (advance_number r)
  have h := run_of_mem hn' hr'
  rw [advance_number] at h
  simp only [advanceRun, updateRun_eq hn hr, h, advance_quantity, advance_state]
  split
  · have hc := changeRun_eq hn' hr' (f := Run.completed) rfl (offerRun .completed)
    rw [advance_number] at hc
    rw [hc]
    have e : r.advance.completed.number = r.number := advance_number r
    have p := putRun_putRun (s := s) (y := r.advance) (z := r.advance.completed) rfl
    rw [e, advance_number] at p
    rw [p]
  · rfl

/-! ### Closing -/

theorem countState_eq (r : Run) (st : PosState) :
    r.countState st = r.window.toList.countP fun e => decide (e.map Position.state = some st) := by
  rw [Run.countState, Run.positions]
  induction r.window.toList with
  | nil => rfl
  | cons a xs ih => cases a <;> simp_all [List.countP_cons]

@[simp] theorem close_number (r : Run) : r.close.number = r.number := by
  simp only [Run.close]; rw [advance_number]; rfl

/-- The closing test: it changes nothing unless the run is CLOSING with nothing OUT and nothing STAGED; then the books are fixed and
a RUN notice CLOSED is offered (R72). -/
theorem closeTest_eq {s : State} {r : Run} (hn : (s.runs.table.map Run.number).Nodup) (hr : r ∈ s.runs.table) :
    closeTest r.number s = if r.canClose then offerRun .closed r.close (s.putRun r.number r.close) else s := by
  simp only [closeTest, run_of_mem hn hr]
  split
  · rw [changeRun_eq hn hr (close_number r)]
  · rfl

/-! ### Withdrawal -/

/-- A test of every run is as before when it holds of the new record as of the old. -/
theorem any_putRun {s : State} {r y : Run} (hn : (s.runs.table.map Run.number).Nodup) (hr : r ∈ s.runs.table) (f : Run → Bool)
   (hf : f y = f r) : (s.putRun r.number y).runs.table.any f = s.runs.table.any f := by
  simp only [State.putRun, List.any_map]
  rw [Bool.eq_iff_iff, List.any_eq_true, List.any_eq_true]
  have key : ∀ x ∈ s.runs.table, (f ∘ fun z => if z.number = r.number then y else z) x = f x := by
    intro x hx
    simp only [Function.comp]
    split
    · next e => rw [List.inj_on_of_nodup_map hn hx hr e, hf]
    · rfl
  constructor
  · rintro ⟨x, hx, h⟩; exact ⟨x, hx, by rw [← key x hx]; exact h⟩
  · rintro ⟨x, hx, h⟩; exact ⟨x, hx, by rw [key x hx]; exact h⟩

/-- The status summary sees of a run its state, its causes and its limit flags alone (R176). -/
theorem summary_putRun {s : State} {r y : Run} (hn : (s.runs.table.map Run.number).Nodup) (hr : r ∈ s.runs.table)
   (h1 : y.state = r.state) (h2 : y.holds = r.holds) (h3 : y.duplicates = r.duplicates) (h4 : y.late = r.late) :
   (s.putRun r.number y).summary = s.summary := by
  have : ∀ c, (s.putRun r.number y).holds c = s.holds c := by
    intro c
    cases c <;> try rfl
    · exact any_putRun hn hr _ (by rw [h1])
    · exact any_putRun hn hr _ (by rw [h1, h2])
    · simp only [State.holds, State.countLimit]
      rw [any_putRun hn hr _ (by rw [h3, h4])]; rfl
  simp only [State.summary, funext this]

/-- A notice offered after such a change is the one offered before it. -/
theorem offer_putRun {s : State} {r y : Run} (hn : (s.runs.table.map Run.number).Nodup) (hr : r ∈ s.runs.table)
   (h1 : y.state = r.state) (h2 : y.holds = r.holds) (h3 : y.duplicates = r.duplicates) (h4 : y.late = r.late) (k v x) :
   offer k v x (s.putRun r.number y) = (offer k v x s).putRun r.number y := by
  have hs := summary_putRun hn hr h1 h2 h3 h4
  simp only [offer, State.noticeMessage, hs]
  simp only [State.queueNotice]
  have a : (s.putRun r.number y).mainUp = s.mainUp := rfl
  have b : (s.putRun r.number y).noticeEnabled k = s.noticeEnabled k := rfl
  have c : ∀ m, (s.putRun r.number y).noticeTag m = s.noticeTag m := fun m => rfl
  have d : (s.putRun r.number y).link = s.link := rfl
  have e : (s.putRun r.number y).time = s.time := rfl
  have f : (s.putRun r.number y).report = s.report := rfl
  rw [a, b, d, e, f, c]
  split
  · split <;> rfl
  · rfl

/-- The positions of the window after one is replaced. -/
theorem position_setPosition {r : Run} {o o' : Nat} {p : Position} (h : r.inWindow o = true) :
   (r.setPosition o (some p)).position o' = if o' = o then some p else r.position o' := by
  have hiw : (r.setPosition o (some p)).inWindow o' = r.inWindow o' := rfl
  simp only [Run.position]
  rw [hiw]
  simp only [Run.inWindow, Bool.and_eq_true, decide_eq_true_eq] at *
  by_cases hw : (r.low ≤ o' ∧ o' < r.low + 64) ∧ o' < r.quantity
  · rw [if_pos hw, if_pos hw]
    simp only [Run.setPosition, Vector.getElem_set, ringEntry]
    have : (o % 64 = o' % 64) ↔ o' = o := by omega
    simp only [this]
  · rw [if_neg hw, if_neg hw, if_neg]
    rintro rfl
    exact hw h

theorem inWindow_of_position {r : Run} {o p} (h : r.position o = some p) : r.inWindow o = true := by
  unfold Run.position at h; split at h <;> simp_all

theorem unstage_position (r : Run) (o i : Nat) :
    (r.mapPosition o Position.unstage).position i =
      if i = o then (r.position i).map Position.unstage else r.position i := by
  unfold Run.mapPosition
  split
  · next h =>
    split
    · next e => rw [e, h]; rfl
    · rfl
  · next p h =>
    rw [position_setPosition (inWindow_of_position h)]
    split
    · next e => rw [e, h]; rfl
    · rfl

theorem mapPosition_only (r : Run) (o : Nat) (f : Position → Position) :
    r.mapPosition o f = { r with window := (r.mapPosition o f).window } := by
  unfold Run.mapPosition; split <;> rfl

theorem unstage_state (p : Position) : p.unstage.state ≠ .staged := by
  unfold Position.unstage
  split
  · simp only; split <;> simp
  · assumption

theorem unstage_unstage (p : Position) : p.unstage.unstage = p.unstage := if_neg (unstage_state p)

/-- A run whose staged records so listed have left the queue: their positions are as before (R61). -/
def Run.withdrawn (r : Run) (xs : List StagedRecord) : Run :=
  xs.foldl (fun r x => r.mapPosition (r.offset x.seq) Position.unstage) r

theorem withdrawn_cons (r : Run) (x : StagedRecord) (xs : List StagedRecord) :
    r.withdrawn (x :: xs) = (r.mapPosition (r.offset x.seq) Position.unstage).withdrawn xs := rfl

theorem withdrawn_only (r : Run) (xs : List StagedRecord) : r.withdrawn xs = { r with window := (r.withdrawn xs).window } := by
  induction xs generalizing r with
  | nil => rfl
  | cons x xs ih => rw [withdrawn_cons, ih, mapPosition_only]

/-- Withdrawal returns the positions of the records it takes and no others (R61). -/
theorem withdrawn_position (r : Run) (xs : List StagedRecord) (o : Nat) :
    (r.withdrawn xs).position o =
      (r.position o).map fun p => if ∃ x ∈ xs, r.offset x.seq = o then p.unstage else p := by
  induction xs generalizing r with
  | nil => simp [Run.withdrawn]
  | cons x xs ih =>
    have hf : ∀ seq, (r.mapPosition (r.offset x.seq) Position.unstage).offset seq = r.offset seq := by
      intro seq; rw [mapPosition_only]; rfl
    simp only [withdrawn_cons, ih, unstage_position, hf, List.mem_cons, exists_eq_or_imp]
    by_cases h : o = r.offset x.seq
    · simp only [← h, true_or, if_true, Option.map_map]
      congr 1
      funext p
      simp only [Function.comp]
      split <;> simp [unstage_unstage]
    · simp only [if_neg h, Ne.symm h, false_or]

/-- The REFUSAL notices of a withdrawal. -/
def refuseAll (n : Word) (xs : List StagedRecord) (s : State) : State :=
  xs.foldl (fun t x => offerRefusal n x.seq .runNotLive t) s

@[simp] theorem refuseAll_runs (n : Word) (xs : List StagedRecord) (s : State) : (refuseAll n xs s).runs = s.runs :=
  (foldl_only _ (fun s _ => offer_only _ _ _ s) xs s).runs

@[simp] theorem refuseAll_core (n : Word) (xs : List StagedRecord) (s : State) : (refuseAll n xs s).core = s.core :=
  (foldl_only _ (fun s _ => offer_only _ _ _ s) xs s).core

/-- A REFUSAL notice does not see where the positions of a run stand. -/
theorem refuseAll_putRun {s : State} {r y : Run} (hn : (s.runs.table.map Run.number).Nodup) (hr : r ∈ s.runs.table)
    (hy : y = { r with window := y.window }) (n : Word) (xs : List StagedRecord) :
    refuseAll n xs (s.putRun r.number y) = (refuseAll n xs s).putRun r.number y := by
  induction xs generalizing s with
  | nil => rfl
  | cons x xs ih =>
    have h : offerRefusal n x.seq .runNotLive (s.putRun r.number y) = (offerRefusal n x.seq .runNotLive s).putRun r.number y :=
      offer_putRun hn hr (by rw [hy]) (by rw [hy]) (by rw [hy]) (by rw [hy]) _ _ _
    have e : (offerRefusal n x.seq .runNotLive s).runs = s.runs := (offer_only _ _ _ s).runs
    simp only [refuseAll, List.foldl_cons] at ih ⊢
    rw [h]
    exact ih (by rw [e]; exact hn) (by rw [e]; exact hr)

/-- The withdrawal of a run's staged records (R61, R71): they leave the queue, their positions return, and a REFUSAL notice is
offered for each in queue order. -/
theorem withdrawRun_eq {s : State} {r : Run} (hn : (s.runs.table.map Run.number).Nodup) (hr : r ∈ s.runs.table) :
    withdrawRun r.number s =
      let mine := s.runs.staging.filter fun x => x.run == r.number
      let left := s.runs.staging.filter fun x => !(x.run == r.number)
      refuseAll r.number mine
        (({ s with runs := { s.runs with staging := left } } : State).putRun r.number (r.withdrawn mine)) := by
  have key : ∀ (xs : List StagedRecord) (r : Run) (u : State), (u.runs.table.map Run.number).Nodup → r ∈ u.runs.table →
      xs.foldl
          (fun t x =>
            offerRefusal r.number x.seq .runNotLive
              (t.updateRun r.number fun r => r.mapPosition (r.offset x.seq) Position.unstage)) u =
        refuseAll r.number xs (u.putRun r.number (r.withdrawn xs)) := by
    intro xs
    induction xs with
    | nil =>
      intro r u hn hr
      have h := updateRun_eq hn hr id
      simp only [State.updateRun, id, ite_self, List.map_id'] at h
      exact h
    | cons x xs ih =>
      intro r u hn hr
      have hm := mapPosition_only r (r.offset x.seq) Position.unstage
      have hw := withdrawn_only (r.mapPosition (r.offset x.seq) Position.unstage) xs
      rw [List.foldl_cons, updateRun_eq hn hr, withdrawn_cons]
      generalize r.mapPosition (r.offset x.seq) Position.unstage = y at *
      have en : y.number = r.number := by rw [hm]
      have wn : (y.withdrawn xs).number = y.number := by rw [hw]
      have e : (offerRefusal r.number x.seq .runNotLive (u.putRun r.number y)).runs = (u.putRun r.number y).runs :=
        (offer_only _ _ _ _).runs
      have hn' : ((u.putRun r.number y).runs.table.map Run.number).Nodup := by rw [← en, putRun_numbers]; exact hn
      have hy : y ∈ (u.putRun r.number y).runs.table := by rw [← en]; exact mem_putRun hr en
      have h := ih y (offerRefusal r.number x.seq .runNotLive (u.putRun r.number y)) (by rw [e]; exact hn') (by rw [e]; exact hy)
      have c := refuseAll_putRun (s := u.putRun r.number y) hn' hy hw r.number (x :: xs)
      have d := refuseAll_putRun (s := offerRefusal r.number x.seq .runNotLive (u.putRun r.number y)) (by rw [e]; exact hn')
        (by rw [e]; exact hy) hw r.number xs
      have p := putRun_putRun (s := u) (y := y) (z := y.withdrawn xs) wn
      rw [en] at h c d p
      rw [wn, en] at p
      rw [h, d, ← p, c]
      rfl
  exact key _ r { s with runs := { s.runs with staging := s.runs.staging.filter fun x => !(x.run == r.number) } } hn hr

end Sys2Proof.Machine
end

