-- ==== Sys2Proof/Laws/Store.lean ====
section
/-! SUPPORT. What the Key Store does on its own account: the lapse of the assemblies (R14, R25, R30), the slot a verify visits (R24), and
the Core after the main domain's reset (R33). -/

namespace Sys2Proof.Machine

/-! ### Assembly lapses -/

/-- An offer adds at most one notice, and loses none while the queue has room (R174, R175). -/
theorem offer_report (k : NoticeKind) (v : Byte) (x : Bytes) (s : State) :
    ∃ l, (offer k v x s).report.notices = s.report.notices ++ l ∧ l.length ≤ 1 ∧
      (s.report.notices.length < 16 → (offer k v x s).report.lost = s.report.lost) := by
  unfold offer
  split
  · unfold State.queueNotice
    split
    · exact ⟨_, rfl, le_refl 1, fun _ => rfl⟩
    · next h => exact ⟨[], by simp, by simp, fun h' => absurd h' h⟩
  · exact ⟨[], by simp, by simp, fun _ => rfl⟩

/-- The unit `u` is `t` with the ASSEMBLING slots among these lapsed: emptied, at most one notice each, none lost while the queue has
room. -/
structure Lapsed (xs : List SlotNo) (t u : State) : Prop where
  same : u = { t with store := { t.store with slots := u.store.slots }, report := u.report }
  slots : ∀ m, u.slot m = if m ∈ xs ∧ (t.slot m).state = .assembling then Slot.blank (t.slot m).lock else t.slot m
  noticeMask : u.report.noticeMask = t.report.noticeMask
  alarmMask : u.report.alarmMask = t.report.alarmMask
  notices : ∃ l, u.report.notices = t.report.notices ++ l ∧
    l.length ≤ xs.countP (fun n => decide ((t.slot n).state = .assembling)) ∧
    (t.report.notices.length + xs.countP (fun n => decide ((t.slot n).state = .assembling)) ≤ 16 → u.report.lost = t.report.lost)

/-- One assembly's lapse (R14). -/
theorem lapseAssembly_lapsed {n : SlotNo} {t : State} (hs : (t.slot n).state = .assembling) : Lapsed [n] t (lapseAssembly n t) := by
  obtain ⟨l, e, hl, hr⟩ := offer_report .key KeyVariant.assemblyLapsed.code [byteOf n.val, byteOf (t.slot n).loaded] (t.emptySlot n)
  have ho := offer_only .key KeyVariant.assemblyLapsed.code [byteOf n.val, byteOf (t.slot n).loaded] (t.emptySlot n)
  have hc : [n].countP (fun m => decide ((t.slot m).state = .assembling)) = 1 := by simp [hs]
  refine ⟨?_, fun m => ?_, ho.noticeMask, ho.alarmMask, l, e, by rw [hc]; exact hl, fun h => hr ?_⟩
  · unfold NoticesOnly at ho
    unfold lapseAssembly offerKey
    rw [ho]; rfl
  · have hm : (lapseAssembly n t).slot m = (t.emptySlot n).slot m := by simp [lapseAssembly, offerKey, State.slot]
    rw [hm, State.emptySlot, setSlot_slot]
    by_cases h : n = m
    · subst h; simp [hs]
    · simp [h, Ne.symm h]
  · rw [hc] at h
    show t.report.notices.length < 16
    omega

theorem lapse_fold (xs : List SlotNo) (hn : xs.Nodup) (t : State) (hh : t.order.hand = none) :
    Lapsed xs t
      (xs.foldl (fun t n => if (t.slot n).state = .assembling ∧ t.loadingSlot ≠ some n then lapseAssembly n t else t) t) := by
  induction xs generalizing t with
  | nil => exact ⟨rfl, by simp, rfl, rfl, [], by simp⟩
  | cons n xs ih =>
    rw [List.nodup_cons] at hn
    simp only [List.foldl_cons]
    by_cases hs : (t.slot n).state = .assembling
    · rw [if_pos ⟨hs, by simp [State.loadingSlot, hh]⟩]
      obtain ⟨a, b, c, d, l, e, hl, hr⟩ := lapseAssembly_lapsed hs
      generalize lapseAssembly n t = v at *
      obtain ⟨a', b', c', d', l', e', hl', hr'⟩ := ih hn.2 v (by rw [a]; exact hh)
      generalize xs.foldl _ v = u at *
      have hx : ∀ m, m ≠ n → v.slot m = t.slot m := fun m hm => by rw [b, if_neg (by simp [hm])]
      have hcnt : xs.countP (fun n => decide ((v.slot n).state = .assembling)) =
          xs.countP (fun n => decide ((t.slot n).state = .assembling)) :=
        List.countP_congr fun m hm => by rw [hx m (by rintro rfl; exact hn.1 hm)]
      have h1 : [n].countP (fun m => decide ((t.slot m).state = .assembling)) = 1 := by simp [hs]
      rw [h1] at hl hr
      rw [hcnt] at hl' hr'
      refine ⟨by rw [a', a], fun m => ?_, c'.trans c, d'.trans d, l ++ l', by rw [e', e, List.append_assoc], ?_, fun h => ?_⟩
      · rw [b']
        by_cases hm : m = n
        · subst hm; rw [if_neg fun h => hn.1 h.1, b]; simp
        · rw [hx m hm]; simp [hm]
      · simp only [List.length_append, List.countP_cons, hs, decide_true, if_true]; omega
      · simp only [List.countP_cons, hs, decide_true, if_true] at h
        rw [hr' (by rw [e, List.length_append]; omega), hr (by omega)]
    · rw [if_neg fun h => hs h.1]
      obtain ⟨a, b, c, d, l, e, hl, hr⟩ := ih hn.2 t hh
      refine ⟨a, fun m => ?_, c, d, l, e, by simpa [List.countP_cons, hs] using hl, fun h => hr ?_⟩
      · rw [b]
        by_cases hm : m = n
        · subst hm; simp [hs]
        · simp [hm]
      · simpa [List.countP_cons, hs] using h

/-- Everything the lapse of the assemblies can do while no order is in hand (R25, R30, R183). -/
theorem lapseAssemblies_lapsed {t : State} (hh : t.order.hand = none) : Lapsed (List.finRange 64) t (lapseAssemblies t) :=
  lapse_fold _ (List.nodup_finRange 64) t hh

/-! ### The slot verify -/

/-- The first slot to visit is the lowest that is ACTIVE or RETIRED (R24). -/
theorem nextVisit_first {s : State} {n : SlotNo} (hv : (s.slot n).visited = true)
    (hm : ∀ m : SlotNo, m.val < n.val → (s.slot m).visited = false) : s.nextVisit 0 = some n := by
  rw [State.nextVisit, List.find?_eq_some_iff_append]
  refine ⟨by simp [hv], (List.finRange 64).take n.val, (List.finRange 64).drop (n.val + 1), ?_, fun a ha => ?_⟩
  · conv_lhs => rw [← List.take_append_drop n.val (List.finRange 64)]
    congr 1
    rw [List.drop_eq_getElem_cons (by simp)]
    simp
  · obtain ⟨i, hi, rfl⟩ := List.mem_take_iff_getElem.1 ha
    have hlt : i < n.val := by simp at hi; omega
    have hv' := hm (List.finRange 64)[i] (by simpa using hlt)
    simp only [hv']; simp

/-- With no slot ACTIVE or RETIRED there is none to visit (R24). -/
theorem nextVisit_none {s : State} (h : ∀ m : SlotNo, (s.slot m).visited = false) : s.nextVisit 0 = none := by
  rw [State.nextVisit, List.find?_eq_none]
  intro x _
  simp [h x]

/-! ### The Core after a reset of the main domain -/

/-- While no order is in hand, only the verify and the notices have steps to present (R33, R35). -/
theorem newSteps_users {s : State} (hh : s.order.hand = none) {k : KsStep} (hk : k ∈ arrange s.free s.newSteps) :
    k.user = .verify ∨ k.user = .report := by
  obtain ⟨u, -, hu⟩ := List.mem_filterMap.1 (mem_arrange.1 hk)
  split at hu
  · cases hu
  · cases u with
    | load => simp [State.wantedStep, hh] at hu
    | order => simp [State.wantedStep, hh] at hu
    | verify => cases hv : s.store.verify <;> simp [State.wantedStep, hv] at hu; left; rw [← hu]
    | report => cases hv : s.noticeJob <;> simp [State.wantedStep, hv] at hu; right; rw [← hu]

/-- The end of an event that leaves the Core at its reset value and no order in hand: nothing but the Core changes, and it holds steps of
the verify and the notices alone (R32, R33). -/
theorem settleCore_fresh {s : State} (hc : s.core = .initial) (hh : s.order.hand = none) :
    SettlesTo s (settleCore s) ∧ (settleCore s).core.engineWaits = none ∧
      (∀ k ∈ (settleCore s).core.queue, k.user = .verify ∨ k.user = .report) ∧
      ((settleCore s).core.work = .idle ∨
        ∃ k, (settleCore s).core.work = .keyStore k false ∧ (k.user = .verify ∨ k.user = .report)) := by
  have hq : s.quiet := ⟨fun k hk => (by rw [hc] at hk; cases hk), fun h l e => (by rw [hh] at e; cases e)⟩
  refine ⟨settleCore_settles hq, ?_⟩
  have hp : ∀ k ∈ (presentSteps s).core.queue, k.user = .verify ∨ k.user = .report := by
    intro k hk
    have hk' : k ∈ s.core.queue ++ arrange s.free s.newSteps := hk
    rw [hc] at hk'
    exact newSteps_users hh (by simpa [CipherCore.initial] using hk')
  have hb : (beginStep (presentSteps s)).order.hand = none ∧ (beginStep (presentSteps s)).core.engineWaits = none ∧
      (∀ k ∈ (beginStep (presentSteps s)).core.queue, k.user = .verify ∨ k.user = .report) ∧
      ((beginStep (presentSteps s)).core.work = .idle ∨
        ∃ k, (beginStep (presentSteps s)).core.work = .keyStore k false ∧ (k.user = .verify ∨ k.user = .report)) := by
    have hcounts := presentSteps_quietQueue hq
    have hw : (presentSteps s).core.work = .idle := by show s.core.work = _; rw [hc]; rfl
    have he : (presentSteps s).core.engineWaits = none := by show s.core.engineWaits = _; rw [hc]; rfl
    have ho : (presentSteps s).order.hand = none := hh
    generalize presentSteps s = p at *
    unfold beginStep
    rw [if_neg (by simp [hw])]
    cases hpq : p.core.queue with
    | nil =>
      simp only [he]
      exact ⟨ho, trivial, fun k hk => (by rw [hpq] at hk; cases hk), .inl hw⟩
    | cons k rest =>
      simp only [hcounts k (by rw [hpq]; simp)]
      exact ⟨ho, he, fun j hj => hp j (by rw [hpq]; simp [hj]), .inr ⟨k, rfl, hp k (by rw [hpq]; simp)⟩⟩
  rw [show settleCore s = presentSteps (beginStep (presentSteps s)) from rfl]
  generalize beginStep (presentSteps s) = b at *
  refine ⟨hb.2.1, fun k hk => ?_, hb.2.2.2⟩
  have hk' : k ∈ b.core.queue ++ arrange b.free b.newSteps := hk
  rcases List.mem_append.1 hk' with h | h
  · exact hb.2.2.1 k h
  · exact newSteps_users hb.1 h

end Sys2Proof.Machine
end

