-- ==== Sys2Proof/Laws/Zeroise.lean ====
section
/-! SUPPORT. What a zeroisation does beside the store itself: the order in hand (R140), the runs that named a slot (R27, R46), the
reports of the lines (R101). -/

namespace Sys2Proof.Machine

/-! ### The runs that named a slot -/

/-- A general slot that a zeroisation empties (R27). -/
abbrev State.loses (s : State) (n : SlotNo) : Prop := 7 ≤ n.val ∧ (s.slot n).state ≠ .empty

/-- A run that gains KEY when the store is zeroised (R27, R46). -/
abbrev State.losesKey (s : State) (r : Run) : Prop :=
  (s.loses r.master ∨ ∃ n, r.prep = some n ∧ s.loses n) ∧ (r.state = .defined ∨ r.state = .live ∨ r.state = .held)

theorem takesKeyCause_iff (r : Run) : r.takesKeyCause = true ↔ r.state = .defined ∨ r.state = .live ∨ r.state = .held := by
  simp [Run.takesKeyCause, or_assoc]

/-- KEY added twice is KEY added once (R46). -/
theorem addKey_addKey (r : Run) :
    (r.addCause fun h => { h with key := true }).addCause (fun h => { h with key := true }) =
      r.addCause fun h => { h with key := true } := by
  simp only [Run.addCause]; split <;> simp

/-- The report of one slot, as one run takes it (R46). -/
def Run.toldLost (was : State) (n : SlotNo) (r : Run) : Run :=
  if 7 ≤ n.val ∧ (was.slot n).state ≠ .empty then
    if r.names n && r.takesKeyCause then r.addCause fun h => { h with key := true } else r
  else r

/-- The reports of several slots come to one KEY for a run that any of them concerns (R46). -/
theorem foldl_toldLost (was : State) (xs : List SlotNo) (r : Run) :
    xs.foldl (fun y n => y.toldLost was n) r =
      if (∃ n ∈ xs, was.loses n ∧ r.names n = true) ∧ r.takesKeyCause = true then
        r.addCause fun h => { h with key := true }
      else r := by
  induction xs generalizing r with
  | nil => simp
  | cons x xs ih =>
    rw [List.foldl_cons, ih]
    by_cases hit : was.loses x ∧ (r.names x && r.takesKeyCause) = true
    · have told : r.toldLost was x = r.addCause fun h => { h with key := true } := by
        unfold Run.toldLost; rw [if_pos (show 7 ≤ x.val ∧ _ from hit.1), if_pos hit.2]
      have both := hit.2
      simp only [Bool.and_eq_true] at both
      rw [told, if_pos (c := (∃ n ∈ x :: xs, _) ∧ _) ⟨⟨x, List.mem_cons_self, hit.1, both.1⟩, both.2⟩]
      split
      · exact addKey_addKey r
      · rfl
    · have told : r.toldLost was x = r := by
        unfold Run.toldLost
        split
        · next h => exact if_neg fun k => hit ⟨h, k⟩
        · rfl
      rw [told]
      simp only [Bool.and_eq_true] at hit
      congr 1
      simp only [List.mem_cons, exists_eq_or_imp, eq_iff_iff]
      tauto

/-- The report of one slot changes the Run Table alone, each run on its own (R46). -/
theorem reportUnusable_toldLost (was s : State) (n : SlotNo) :
    (if 7 ≤ n.val ∧ (was.slot n).state ≠ .empty then s.reportUnusable n else s) =
      { s with runs := { s.runs with table := s.runs.table.map (Run.toldLost was n) } } := by
  unfold State.reportUnusable Run.toldLost
  split <;> simp

/-- The reports of a zeroisation change the Run Table alone, each run on its own (R27, R46). -/
theorem reportZeroised_only (was s : State) :
    reportZeroised was s =
      { s with runs := { s.runs with
          table := s.runs.table.map fun r => (List.finRange 64).foldl (fun y n => y.toldLost was n) r } } := by
  unfold reportZeroised
  generalize List.finRange 64 = xs
  induction xs generalizing s with
  | nil => simp
  | cons x xs ih =>
    rw [List.foldl_cons, reportUnusable_toldLost, ih]
    simp only [List.map_map]; rfl

/-- The runs after a zeroisation: KEY on each run that named a slot it emptied, and no other change (R27, R46; log 21). -/
theorem reportZeroised_runs (was s : State) :
    ∃ table, reportZeroised was s = { s with runs := { s.runs with table := table } } ∧
      List.Forall₂
        (fun r y => (was.losesKey r → y = r.addCause fun h => { h with key := true }) ∧ (¬was.losesKey r → y = r))
        s.runs.table table := by
  refine ⟨_, reportZeroised_only was s, ?_⟩
  rw [List.forall₂_map_right_iff, List.forall₂_same]
  intro r _
  have named : (∃ n ∈ List.finRange 64, was.loses n ∧ r.names n = true) ↔
      was.loses r.master ∨ ∃ n, r.prep = some n ∧ was.loses n := by
    simp only [List.mem_finRange, true_and, Run.names, Bool.or_eq_true, decide_eq_true_eq]
    constructor
    · rintro ⟨n, h, rfl | e⟩
      · exact .inl h
      · exact .inr ⟨n, e, h⟩
    · rintro (h | ⟨n, e, h⟩)
      · exact ⟨_, h, .inl rfl⟩
      · exact ⟨n, h, .inr e⟩
  have hit : (∃ n ∈ List.finRange 64, was.loses n ∧ r.names n = true) ∧ r.takesKeyCause = true ↔ was.losesKey r := by
    rw [named, takesKeyCause_iff]
  rw [foldl_toldLost]
  exact ⟨fun h => if_pos (hit.2 h), fun h => if_neg fun k => h (hit.1 k)⟩

/-! ### The order in hand and the reports of the lines -/

/-- A comparison in hand is given up: its step leaves the Core, the gate is emptied, an untagged decision follows (R27, R140). -/
theorem zeroiseOrder_comparing {s : State} {h : OrderInHand} {n : SlotNo} {j : TagJob} (hh : s.order.hand = some h)
    (hc : h.handling = .comparing n j) :
    zeroiseOrder s =
      { s.discardUser .order with
        order := { s.order with hand := some { h with handling := .untagged }, gate := { grants := [], deadline := none } } } := by
  unfold zeroiseOrder
  simp only [hh, Option.map_some, hc, State.emptyGate, State.discardUser, OrderInHand.afterZeroise]

/-- An order is accepted only at the end of its tag's comparison (R138). -/
theorem comparing_of_accepted {h : OrderInHand} {s : State} (hs : s.standing h = some .accepted) :
    ∃ n j, h.handling = .comparing n j := by
  unfold State.standing at hs
  cases hx : h.handling <;> simp_all
  split at hs <;> cases hs

/-- The LINE notices depend only on what the lines reported before (R101). -/
theorem lineNotices_was {a b : State} (h : ∀ l, a.reported l = b.reported l) (s : State) : lineNotices a s = lineNotices b s := by
  simp only [lineNotices, h]

end Sys2Proof.Machine
end

