-- ==== Sys2Proof/WellFormed.lean ====
section
/-! DEFINITION. Which commands a sender may send: the operands' ranges that their types do not already give. -/

namespace Sys2Proof

/-- A lapse names an offset below the largest quantity a run can have (R43). -/
def WellFormed.offsetInRange (offset : Nat) : Bool := decide (offset < 2000000)

/-- Only a general slot can be ASSEMBLING (R2, R11). -/
def WellFormed.generalSlot (slot : SlotNo) : Bool := decide (7 ≤ slot.val)

/-- The well-formed commands. -/
def wellFormed : Instr → Bool
  | .status => true
  | .grant => true
  | .loadClear _ => true
  | .setUnit _ => true
  | .commission _ => true
  | .beginKey => true
  | .loadComponent => true
  | .loadWrappedKey => true
  | .lockSlot => true
  | .unlockSlot => true
  | .retireSlot => true
  | .eraseSlot => true
  | .setCeiling => true
  | .readSlot => true
  | .wake => true
  | .zeroise => true
  | .ackTamper _ => true
  | .openRun => true
  | .releaseRun => true
  | .holdRun => true
  | .addAllowance => true
  | .closeRun => true
  | .writeOffCard => true
  | .deleteRun => true
  | .readRun => true
  | .defineRecipe => true
  | .readRecipe => true
  | .setLine => true
  | .setGroupMembers => true
  | .setGroupKey => true
  | .setGroupCredit => true
  | .barLine => true
  | .unbarLine => true
  | .clearLine => true
  | .productionOn => true
  | .productionOff => true
  | .readLine => true
  | .readLinkErrors => true
  | .setSensor => true
  | .resume => true
  | .openCabinet => true
  | .closeCabinet => true
  | .readTamperRecord => true
  | .setTime => true
  | .setNoticeMask => true
  | .setAlarmMask => true
  | .setIdleLimit => true
  | .unknownOrderCode => true
  | .orderFrame _ => true
  | .record _ => true
  | .upstreamFrameError _ => true
  | .engineCipherStep => true
  | .loadUnwrapEnd => true
  | .answerBuilt => true
  | .noticeBuilt => true
  | .outcome _ _ => true
  | .lapse _ offset => WellFormed.offsetInRange offset
  | .lineSendBegin _ => true
  | .lineSendComplete _ => true
  | .lineLinkLoss _ => true
  | .lineLinkRestore _ => true
  | .relayFrame _ => true
  | .onwardSendBegin => true
  | .onwardSendComplete => true
  | .upstreamTransmitChoice => true
  | .upstreamSendComplete => true
  | .portLinkLoss _ => true
  | .portLinkRestore _ => true
  | .assemblyLapse slot => WellFormed.generalSlot slot
  | .gateLapse => true
  | .settlingExpiry => true
  | .idleMinuteDeadline => true
  | .idleTimerExpiry => true
  | .secondsClockAdvance => true
  | .slotVerifyStep => true
  | .eraseScrubComplete => true
  | .zeroiseScrubComplete => true
  | .sensorInputActive _ => true
  | .sensorInputInactive _ => true
  | .qualificationExpiry _ => true
  | .windowEnd => true
  | .mainLoss => true
  | .firstPower => true
  | .mainRestore => true
  | .warmReset => true
  | .keyStoreSideCipherStep => true
  | .batteryLoss => true

end Sys2Proof
end

