-- ==== Sys2Proof/Tests/Slice0.lean ====
section
/-! SUPPORT. Tests: the smoke tests of WellFormed, the spec's worked values, single steps on small states, and for each statement with
hypotheses a witness that meets them. Expected values are the spec's own tables and examples, or hand calculation from its rules. -/

namespace Sys2Proof.Tests

open Sys2Proof.Machine

-- One theorem after another: the kernel's evaluations take less memory so.
set_option Elab.async false

/-! ### Small states -/

/-- A slot with a key. -/
def keySlot (c : KeyClass) (key : Block) : Slot :=
  { Slot.blank false with state := .active, cls := some c, key := some key, check := some 0x010203 }

/-- An assembly of two components that has its first. -/
def assembly : Slot :=
  { Slot.blank false with
    state := .assembling, cls := some .line, required := some 2, components := some [1], accumulator := some 5,
    expected := some 0, deadline := some 600000 }

/-- The slots: 0 MGMT, 1 and 2 CUSTODIAN, 7 IMPORT, 9 and 63 LINE, 10 MASTER, 11 PREP, 12 assembling, 14 LINE at its ceiling, 15 LINE
locked. -/
def testSlots : Vector Slot 64 :=
  Vector.ofFn fun i =>
    if i.val = 0 then keySlot .mgmt 1
    else if i.val = 1 ∨ i.val = 2 then keySlot .custodian 2
    else if i.val = 7 then keySlot .importing 3
    else if i.val = 9 ∨ i.val = 63 then keySlot .line 4
    else if i.val = 10 then keySlot .master 5
    else if i.val = 11 then keySlot .prep 6
    else if i.val = 12 then assembly
    else if i.val = 14 then { keySlot .line 7 with ceiling := 3, uses := { value := 3, limit := false } }
    else if i.val = 15 then { keySlot .line 8 with lock := true }
    else Slot.blank false

/-- A position OPEN, VOID, STAGED, OUT on L0. -/
def voidCard : Position := { Position.fresh with state := .voided }
def stagedCard : Position := { Position.fresh with state := .staged, prior := some .opened }
def outCard : Position := { Position.fresh with state := .out, attempt := 1, line := some 0, dispatched := some 0 }
def lateCard : Position := { Position.fresh with state := .spoiled, attempt := 1, lateEligible := true, lapsedLine := some 0 }

/-- Run 1 of 100 cards from sequence number 1000, cards 0 to 5 OPEN, STAGED, OUT on L0, VOID, late-eligible, DONE. -/
def runAt (st : RunState) : Run :=
  { number := 1, state := st, holds := { order := decide (st = .held), overspoil := false, key := false }, master := 10, prep := none,
    recipe := 0, group := 0, first := 1000, quantity := 100, spoilRate := 20, allowance := 2, timeout := 1000, postscaler := 10,
    progress := 0, low := 0,
    window :=
      (((((freshWindow 100).set 1 (some stagedCard)).set 2 (some outCard)).set 3 (some voidCard)).set 4 (some lateCard)).set 5
        (some { Position.fresh with state := .done, attempt := 1 }),
    issues := 3, reissues := 0, done := 1, spoiled := 1, lapsed := 1, voided := 1, duplicates := .zero, late := .zero,
    unissued := none }

/-- A recipe of one STAMP under tag 01H. -/
def stampRecipe : List Action := [{ kind := .stamp, source := 0, result := 1, repeats := 1, variant := 0, optional := false }]

/-- Line L0 with slot 9, two cards of credit in use. -/
def testLine : Line := { Line.initial true with keySlot := some 9, limit := 4, occupied := 2 }

/-- An OPERATIONAL unit with main power up, production on, L0 in group A, run 1 LIVE. -/
def unit : State :=
  { State.reset with
    store := { KeyStore.initial with slots := testSlots, custody := .operational }
    runs := { table := [runAt .live], staging := [] }
    recipes := Recipes.initial.set 0 (some stampRecipe)
    dispatch :=
      { lines := (Vector.replicate 8 (Line.initial true)).set 0 testLine, groups := (Vector.replicate 4 0).set 0 1,
        production := true }
    report := ReportUnit.initial }

/-- The unit with run 1 in another state. -/
def unitRun (st : RunState) : State := { unit with runs := { unit.runs with table := [runAt st] } }

/-- The unit in another custody state. -/
def unitIn (c : Custody) : State := { unit with store := { unit.store with custody := c } }

/-- The last step of the tag of the order in hand. -/
def tagStep : CipherStep := { fn := .enc, key := 1, block := 0 }
def tagJob : TagJob := { key := 1, chain := 0, blocks := [0] }
def orderTag : Tag := truncateTag tagStep.result

/-- The order in hand: code, parameters, and a tag that agrees. -/
def handOf (code : Byte) (ps : Bytes) : OrderInHand :=
  { header := frameHeader kindOrder 0 (ps.length + 9) 1, body := code :: (ps ++ bytesOfTag orderTag), broadcast := false,
    handling := .comparing 0 tagJob }

/-- The unit at the event of that order's decision, with both grants it may need. -/
def deciding (code : Byte) (ps : Bytes) (s : State) : State :=
  { s with
    order :=
      { hand := some (handOf code ps), answer := none,
        gate := { grants := [⟨1, 1, 0⟩, ⟨2, 1, 0⟩], deadline := some 60000 } }
    core := { work := .keyStore { user := .order, step := tagStep, counts := none } false, queue := [], engineWaits := none } }

/-- The order met without a tag, directed or broadcast, and the unit at its decision. -/
def bareHand (code : Byte) (ps : Bytes) (broadcast : Bool) : OrderInHand :=
  { handOf code ps with broadcast := broadcast, handling := .untagged }

def bare (code : Byte) (ps : Bytes) (broadcast : Bool) (s : State) : State :=
  { s with order := { s.order with hand := some (bareHand code ps broadcast) } }

theorem bytesOfTag_length (t : Tag) : (bytesOfTag t).length = 8 := rfl

theorem natOfBytes_be32 (n : Nat) (a : Nat) : (be32 n).foldl (fun a b => a * 256 + b.toNat) a = a * 2 ^ 32 + n % 2 ^ 32 := by
  simp only [be32, byteOf, List.foldl, BitVec.toNat_ofNat]
  omega

theorem natOfBytes_bytesOfTag (t : Tag) : natOfBytes (bytesOfTag t) = t.toNat := by
  have h := t.isLt
  simp only [natOfBytes, bytesOfTag, List.foldl_append, natOfBytes_be32]
  omega

theorem handOf_code (code : Byte) (ps : Bytes) : (handOf code ps).code = code := by
  have h : ¬(handOf code ps).body.length < 9 := by simp [handOf, bytesOfTag_length]
  simp only [OrderInHand.code, if_neg h]; rfl

theorem handOf_params (code : Byte) (ps : Bytes) : (handOf code ps).params = ps := by
  simp [OrderInHand.params, handOf, sliceBytes, bytesOfTag_length]

theorem handOf_carriedTag (code : Byte) (ps : Bytes) : (handOf code ps).carriedTag = orderTag := by
  have h : (handOf code ps).body.drop ((handOf code ps).body.length - 8) = bytesOfTag orderTag := by
    simp [handOf, bytesOfTag_length]
  rw [OrderInHand.carriedTag, h, natOfBytes_bytesOfTag]; simp

theorem handOf_number (code : Byte) (ps : Bytes) : (handOf code ps).number = 1 := by
  simp [OrderInHand.number, handOf, frameHeader, sliceBytes, be16, be32, byteOf, wordOfBytes, natOfBytes]

/-- The standing of such an order while slot 0 is ACTIVE. -/
theorem standing_handOf (code : Byte) (ps : Bytes) (s : State) (h0 : (s.slot 0).state = .active) :
    (deciding code ps s).standing (handOf code ps) = if s.store.lastOrder < 1 then some .accepted else some .stale := by
  have h0' : ((deciding code ps s).slot 0).state = .active := h0
  have hn : (deciding code ps s).store.lastOrder = s.store.lastOrder := rfl
  have hr : (deciding code ps s).coreResult = tagStep.result := rfl
  have hv : (deciding code ps s).coreServes .order = true := rfl
  have hh : (handOf code ps).handling = .comparing 0 tagJob := rfl
  have hl : tagJob.isLast = true := rfl
  simp only [State.standing, hh, hv, hr, h0', hn, hl, handOf_carriedTag, handOf_number, orderTag, Bool.and_self, if_true, and_self]

/-- Such an order is accepted at its decision, for any rule it fits. -/
theorem accepting {rule : OrderRule} {code : Byte} {ps : Bytes} {s : State} (hm : s.power.supply = .main)
    (hc : rule.matching code = true) (hk : rule.known = true) (hf : rule.fits ps = true)
    (hp : rule.passed s.store.custody = true) (hn : s.store.lastOrder = 0) (h0 : (s.slot 0).state = .active) :
    Accepting rule (handOf code ps) (deciding code ps s) := by
  refine ⟨⟨⟨hm, rfl, by rw [handOf_code]; exact hc, ?_, ?_⟩, ?_⟩, ?_⟩
  · rw [standing_handOf _ _ _ h0, hn]; rfl
  · intro k hk; cases hk
  · have hp' : rule.passed (deciding code ps s).store.custody = true := hp
    have hv : rule.verdict (handOf code ps) (deciding code ps s) = rule.screen (handOf code ps) (deciding code ps s) := rfl
    simp [hv, OrderRule.screen, hk, handOf_params, hf, hp', need, bind, Except.bind]
  · rw [handOf_number]; cases rule.cls <;> rfl

/-- An order met without a tag stands untagged, or as a broadcast. -/
theorem handling {rule : OrderRule} {code : Byte} {ps : Bytes} {b : Bool} {s : State} (hm : s.power.supply = .main)
    (hc : rule.matching code = true) (hk : rule.known = true) (hf : rule.fits ps = true)
    (hp : rule.passed s.store.custody = true) (hq : s.core.queue = []) :
    Handles rule (bareHand code ps b) (if b then .broadcast else .untagged) (bare code ps b s) := by
  refine ⟨⟨hm, rfl, ?_, rfl, ?_⟩, ?_⟩
  · rw [show (bareHand code ps b).code = (handOf code ps).code from rfl, handOf_code]; exact hc
  · intro k hk; rw [show (bare code ps b s).core.queue = s.core.queue from rfl, hq] at hk; cases hk
  · have hp' : rule.passed (bare code ps b s).store.custody = true := hp
    have hf' : rule.fits (bareHand code ps b).params = true := by
      rw [show (bareHand code ps b).params = (handOf code ps).params from rfl, handOf_params]; exact hf
    have hv : rule.verdict (bareHand code ps b) (bare code ps b s) = rule.screen (bareHand code ps b) (bare code ps b s) := rfl
    simp [hv, OrderRule.screen, hk, hf', hp', need, bind, Except.bind]

/-- A unit with nothing waiting for the Core and no order in hand is quiet. -/
theorem quiet_of_idle {s : State} (hq : s.core.queue = []) (hh : s.order.hand = none) : s.quiet := by
  constructor
  · intro k hk; simp [hq] at hk
  · intro h l e; simp [hh] at e

/-- What `accepting` asks, as one test. -/
def acceptable (rule : OrderRule) (code : Byte) (s : State) (ps : Bytes) : Bool :=
  decide (s.power.supply = .main) && rule.matching code && rule.known && rule.fits ps && rule.passed s.store.custody &&
    decide (s.store.lastOrder = 0) && decide ((s.slot 0).state = .active)

theorem accepting_all {rule : OrderRule} {code : Byte} {s : State} {pss : List Bytes}
    (h : pss.all (acceptable rule code s) = true) :
    ∀ ps ∈ pss, Accepting rule (handOf code ps) (deciding code ps s) := by
  intro ps hp
  have := List.all_eq_true.1 h ps hp
  simp only [acceptable, Bool.and_eq_true, decide_eq_true_eq] at this
  obtain ⟨⟨⟨⟨⟨⟨a, b⟩, c⟩, d⟩, e⟩, f⟩, g⟩ := this
  exact accepting a b c d e f g

/-- What `handling` asks, as one test. -/
def handleable (rule : OrderRule) (code : Byte) (s : State) (ps : Bytes) : Bool :=
  decide (s.power.supply = .main) && rule.matching code && rule.known && rule.fits ps && rule.passed s.store.custody &&
    decide (s.core.queue = [])

theorem handling_all {rule : OrderRule} {code : Byte} {b : Bool} {s : State} {pss : List Bytes}
    (h : pss.all (handleable rule code s) = true) :
    ∀ ps ∈ pss, Handles rule (bareHand code ps b) (if b then .broadcast else .untagged) (bare code ps b s) := by
  intro ps hp
  have := List.all_eq_true.1 h ps hp
  simp only [handleable, Bool.and_eq_true, decide_eq_true_eq] at this
  obtain ⟨⟨⟨⟨⟨a, b⟩, c⟩, d⟩, e⟩, f⟩ := this
  exact handling a b c d e f


/-- `deciding` and `bare` change the Order Unit and the Core alone: what a witness says of the unit holds at the decision. -/
theorem deciding_same (code : Byte) (ps : Bytes) (s : State) :
    deciding code ps s = { s with order := (deciding code ps s).order, core := (deciding code ps s).core } := rfl

theorem bare_same (code : Byte) (ps : Bytes) (b : Bool) (s : State) :
    bare code ps b s = { s with order := (bare code ps b s).order } := rfl

/-! ### WellFormed refuses an ill-formed term for each check -/

theorem test_lapse_offset_refused : wellFormed (.lapse 1 2000000) = false := by decide
theorem test_lapse_offset_admitted : wellFormed (.lapse 1 1999999) = true := by decide
theorem test_assembly_slot_refused : wellFormed (.assemblyLapse 6) = false := by decide
theorem test_assembly_slot_admitted : wellFormed (.assemblyLapse 7) = true := by decide

/-! ### Decode: the table gives no bits, so no word spells a command -/

theorem test_no_word_spells_a_command : decodeTableWord 8 0x13 = none ∧ State.reset.withFetchWord 8 0x13 = State.reset := by
  decide +kernel

/-! ### Worked values of the spec -/

/-- 6.1: the frame check of the ASCII digits 1 to 9. -/
theorem test_frame_check : frameCheck [0x31, 0x32, 0x33, 0x34, 0x35, 0x36, 0x37, 0x38, 0x39] = 0xCBF43926 := by decide +kernel

/-- The published standard's example for a 128-bit key (FIPS 197, appendix C.1), which R31 says fixes every step. -/
theorem test_cipher_encrypts :
    cipherE 0x000102030405060708090a0b0c0d0e0f 0x00112233445566778899aabbccddeeff = 0x69c4e0d86a7b0430d8cdb78070b4c55a := by
  decide +kernel

theorem test_cipher_decrypts :
    cipherD 0x000102030405060708090a0b0c0d0e0f 0x69c4e0d86a7b0430d8cdb78070b4c55a = 0x00112233445566778899aabbccddeeff := by
  decide +kernel

/-- R38's worked blocks. -/
theorem test_derivation_block_16 :
    derivationBlock [0x35, 0x34, 0x31, 0x33, 0x33, 0x33, 0x39, 0x38, 0x37, 0x36, 0x35, 0x34, 0x33, 0x32, 0x31, 0x30] 0x0001 =
      0xFFFF5413339876543210000100000000 := by decide +kernel

theorem test_derivation_block_12 :
    derivationBlock [0x34, 0x30, 0x30, 0x30, 0x31, 0x32, 0x33, 0x34, 0x35, 0x36, 0x37, 0x38] 0x0000 =
      0xFFFFFFFF400012345678000000000000 := by decide +kernel

theorem test_derivation_block_15 :
    derivationBlock [0x33, 0x37, 0x38, 0x32, 0x38, 0x32, 0x32, 0x34, 0x36, 0x33, 0x31, 0x30, 0x30, 0x30, 0x35] 0x0101 =
      0xFFFFF378282246310005010100000000 := by decide +kernel

theorem test_derivation_block_19 :
    derivationBlock
        [0x34, 0x37, 0x36, 0x31, 0x37, 0x33, 0x39, 0x30, 0x30, 0x31, 0x30, 0x31, 0x30, 0x31, 0x31, 0x39, 0x30, 0x31, 0x30] 0x0002 =
      0xF4761739001010119010000200000000 := by decide +kernel

/-- R49's worked allowances. -/
theorem test_allowances :
    [spoilAllowance 12500 18, spoilAllowance 2250 3, spoilAllowance 2500 3, spoilAllowance 3500 3, spoilAllowance 2 250,
      spoilAllowance 1999 250, spoilAllowance 2000000 250, spoilAllowance 1 250, spoilAllowance 7 0] =
      [225, 7, 8, 10, 0, 500, 500000, 0, 0] := by decide

/-- R34's padding cases: padded length and blocks. -/
theorem test_padding :
    ([0, 12, 15, 16, 35, 1004].map fun n => (padMessage (List.replicate n 0x11)).length) = [16, 16, 16, 32, 48, 1008] ∧
      ([0, 12, 15, 16, 35, 1004].map fun n => (tagBlocks (List.replicate n 0x11)).length) = [1, 1, 1, 2, 3, 63] := by
  decide +kernel

/-- R37's table of identity fields: 12 and 19 digits valid; 11, 20, and a space among 16 not. -/
theorem test_identity :
    [validIdentity (List.replicate 12 0x39), validIdentity (List.replicate 19 0x30), validIdentity (List.replicate 11 0x30),
      validIdentity (List.replicate 20 0x30), validIdentity (List.replicate 15 0x30 ++ [0x20])] =
      [true, true, false, false, false] := by decide

/-- R190: at first power COMMISSIONING alone holds, the last bit of the summary. -/
theorem test_first_summary : State.reset.summary = 0x0001 := by decide +kernel

/-- R56: two settled cards at the low mark let it move up by two. -/
theorem test_low_mark_moves :
    (Run.advance { runAt .live with window := ((freshWindow 100).set 0 (some voidCard)).set 1 (some voidCard) }).low = 2 := by
  decide +kernel

/-! ### Witnesses: the machine, the invariants, the cipher functions, the encodings -/

/-- Meets StepRunsFrontCommand. -/
theorem witness_front : ({ unit with pending := [.productionOff, .warmReset] } : State).pending = .productionOff :: [.warmReset] := rfl

/-- Meets IdleStepTicks, with a supply and without one; run numbers that are unique. -/
theorem witness_idle :
    unit.pending = [] ∧ unit.power.valid = true ∧
      ({ unit with power := { unit.power with valid := false } } : State).pending = [] ∧ (unit.runs.table.map Run.number).Nodup := by
  decide

/-- Meets FirstPower. -/
theorem witness_first_power :
    ({ unit with power := { unit.power with supply := .battery, valid := false } } : State).power.supply = .battery ∧
      ({ unit with power := { unit.power with supply := .battery, valid := false } } : State).power.valid = false := by decide

/-- Meets the four statements that an invariant is kept: it holds at reset, and reset has a next state. -/
theorem witness_invariants :
    (Bounded State.reset ∧ ZeroisedEmpty State.reset ∧ BooksKept State.reset ∧ CoreTidy State.reset) ∧
      step State.reset = .next (tick State.reset) := by
  refine ⟨⟨by constructor <;> decide +kernel, fun h => absurd h (by decide), ⟨by decide, fun r hr => by cases hr⟩, ?_⟩, rfl⟩
  constructor
  · decide
  · intro k hk; cases hk
  · intro k hk; cases hk
  · intro k hk; cases hk
  · intro h; exact absurd rfl h

/-- A ZEROISED unit with an ACK TAMPER in hand that has passed the checks of its hand-over. -/
def zeroisedUnit : State :=
  ({ State.reset with store := { KeyStore.initial with custody := .zeroised } } : State).hold
    { header := frameHeader kindOrder 0 9 1, body := 0x1B :: List.replicate 8 0, broadcast := false, handling := .screened }

/-- Meets ZeroisedStaysEmpty where it says something: ZEROISED, all slots EMPTY, an ACK TAMPER in hand. -/
theorem witness_zeroised : zeroisedUnit.store.custody = .zeroised ∧ zeroisedUnit.order.hand ≠ none ∧ ZeroisedEmpty zeroisedUnit := by
  refine ⟨rfl, by decide, fun _ => ⟨by decide +kernel, rfl, fun h e => ?_⟩⟩
  obtain rfl := Option.some.inj e
  exact ⟨nofun, nofun, fun _ => by decide +kernel⟩

/-- Meets BooksStayLawful with a run in the table whose cards balance: 3 issued, 1 DONE, 1 spoiled, 1 OUT. -/
theorem witness_books : BooksKept unit := by
  refine ⟨by decide +kernel, fun r hr => ?_⟩
  have e : r = runAt .live := by simpa [unit] using hr
  subst e
  constructor <;> decide +kernel

/-- Meets IdentityIsR37's second clause: a DERIVE whose source has 11 digits. -/
theorem witness_identity :
    validIdentity (List.replicate 11 0x30) = false ∧
      ({ run := 1, seq := 1, fields := [{ tag := 1, value := List.replicate 11 0x30 }], line := 0, keySlot := 9, attempt := 1, recipe := 0,
         todo := [], output := [], size := 10, waiting := .deriveKey 0 } : Work).source 1 = some (List.replicate 11 0x30) := by
  decide +kernel

/-- Meets DerivationBlockIsR38 at the shortest and the longest identity. -/
theorem witness_derivation : validIdentity (List.replicate 12 0x30) = true ∧ validIdentity (List.replicate 19 0x39) = true := by decide

/-- Meets AllowanceIsR49 in each of its four cases, and at its largest values. -/
theorem witness_allowance :
    12500 * 18 % 1000 < 500 ∧ 500 < 2250 * 3 % 1000 ∧ (3500 * 3 % 1000 = 500 ∧ 3500 * 3 / 1000 % 2 = 0) ∧
      (2500 * 3 % 1000 = 500 ∧ 2500 * 3 / 1000 % 2 = 1) ∧ (1 ≤ 2000000 ∧ 2000000 ≤ 2000000 ∧ 250 ≤ 250) := by decide

/-- Meets SealedFrameIsReadBack at the longest body, and its second part at the shortest frame. -/
theorem witness_frame :
    (255 : Nat) < 256 ∧ (List.replicate 1000 (0 : Byte)).length ≤ 1000 ∧ 12 ≤ (List.replicate 12 (0 : Byte)).length := by
  decide +kernel

/-- Meets RecordsAreReadBack: a field of the longest length beside one of the shortest, and an action. -/
theorem witness_fields :
    let fs : List Field := [{ tag := 0, value := List.replicate 200 0x31 }, { tag := 255, value := [0] }]
    1 ≤ fs.length ∧ fs.length ≤ 32 ∧ (fs.map Field.tag).Nodup ∧ (∀ f ∈ fs, 1 ≤ f.value.length ∧ f.value.length ≤ 200) ∧
      ∀ a ∈ stampRecipe, a.source < 256 ∧ a.result < 256 ∧ a.repeats < 256 := by decide +kernel

/-! ### Witnesses: the Core, the uses, the notices -/

/-- Meets CoreServesWaitingSteps: quiet; idle with a waiting Key Store side step; idle with the engine's step alone; busy. -/
theorem witness_core :
    unit.quiet ∧
      (∃ s : State, s.core.work = .idle ∧ s.core.queue = [{ user := .verify, step := checkStep 1, counts := none }]) ∧
      (∃ s : State, s.core.work = .idle ∧ s.core.queue = [] ∧ (∀ u, s.wantedStep u = none) ∧
        s.core.engineWaits = some (checkStep 1)) ∧
      ∃ s : State, s.core.work ≠ .idle :=
  ⟨quiet_of_idle rfl rfl,
    ⟨{ unit with core := { unit.core with queue := [{ user := .verify, step := checkStep 1, counts := none }] } }, rfl, rfl⟩,
    ⟨{ unit with core := { unit.core with engineWaits := some (checkStep 1) } }, rfl, rfl, fun u => by cases u <;> rfl, rfl⟩,
    ⟨{ unit with core := { unit.core with work := .engine (checkStep 1) false } }, by decide⟩⟩

/-- Meets each clause of KeyUseIsAnswered: refused by custody, suspension, state and class; spent; granted; granted and reaching the
ceiling. -/
theorem witness_use :
    (unitIn .dormant).store.custody ≠ .operational ∧ (unit.slot 8).state ≠ .active ∧ (unit.slot 9).cls ≠ some UseKind.derivation.cls ∧
      (unit.store.custody = .operational ∧ unit.suspended = false) ∧
      ((unit.slot 14).state = .active ∧ (unit.slot 14).cls = some UseKind.wrap.cls ∧ (unit.slot 14).ceiling ≠ 0 ∧
        (unit.slot 14).ceiling ≤ (unit.slot 14).uses.value) ∧
      ((unit.slot 9).state = .active ∧ (unit.slot 9).cls = some UseKind.wrap.cls ∧ (unit.slot 9).ceiling = 0) ∧
      (let s := unit.setSlot 9 { unit.slot 9 with ceiling := 1 }
       (s.slot 9).uses.value < (s.slot 9).ceiling ∧ (s.slot 9).uses.value + 1 = (s.slot 9).ceiling) := by decide +kernel

/-- Meets each clause of NoticeIsOffered: main power off, a disabled kind, a free place, a full queue; an answer with a key to tag
with and without one. -/
theorem witness_notice :
    ({ unit with power := { unit.power with supply := .battery } } : State).power.supply = .battery ∧
      ({ unit with report := { unit.report with noticeMask := 0x0180 } } : State).report.noticeMask.getLsbD 0 = false ∧
      (unit.power.supply = .main ∧ unit.report.noticeMask.getLsbD (NoticeKind.code .power - 1) = true ∧
        unit.report.notices.length < 16) ∧
      16 ≤ ({ unit with report := { unit.report with notices := List.replicate 16 Notice.firstPower } } : State).report.notices.length ∧
      ((unit.slot 0).state = .active ∧ (unit.slot 0).key = some 1) ∧ (State.reset.slot 0).state ≠ .active := by
  decide +kernel

/-! ### Witnesses: the decision of an order -/

/-- A frame of an order with these body bytes. -/
def orderFrame (body : Bytes) : Bytes := sealFrame (frameHeader kindOrder 0 body.length 1 ++ body)

/-- Meets each clause of the meeting of an order: bodies of 29 bytes and less, a body of 8, a GRANT of custodian 1, 6, 0 and 7, a GRANT
without a custodian, a body too short. -/
theorem witness_meeting :
    let body : List Byte → Bytes := fun b => frameBody (orderFrame b)
    (body (0x03 :: List.replicate 28 0)).length = 29 ∧ byteAt (body (0x03 :: List.replicate 28 0)) 0 = 0x03 ∧
      (body (List.replicate 8 0)).length = 8 ∧ (body (0x02 :: 1 :: List.replicate 8 0)).length = 10 ∧
      (byteAt (body (0x02 :: 1 :: List.replicate 8 0)) 1).toNat = 1 ∧ (byteAt (body (0x02 :: 6 :: List.replicate 8 0)) 1).toNat = 6 ∧
      (byteAt (body (0x02 :: 0 :: List.replicate 8 0)) 1).toNat = 0 ∧ 6 < (byteAt (body (0x02 :: 7 :: List.replicate 8 0)) 1).toNat ∧
      (body (0x02 :: List.replicate 8 0)).length = 9 ∧ (body [1]).length < 8 ∧
      (unit.slot 0).state = .active ∧ (unit.slot 0).key = some 1 ∧ (unit.slot 1).state = .active ∧ (unit.slot 1).key = some 2 ∧
      (State.reset.slot 0).state ≠ .active := by decide +kernel

/-- The order a frame brings, as OrdersAreAuthenticated names it. -/
def plainOrder (frame : Bytes) : OrderInHand :=
  { header := frame.take 8, body := frameBody frame, broadcast := false, handling := .untagged }

/-- Meets the clauses of OrdersAreAuthenticated for a unit in FACTORY: an unknown code, a wrong length, an order of OPERATIONAL, SET
UNIT and LOAD CLEAR. -/
theorem witness_screened_meeting :
    let p : Bytes → OrderInHand := fun body => plainOrder (orderFrame body)
    State.reset.store.custody = .factory ∧
      (orderRule .unknownOrderCode = some unknownRule ∧ unknownRule.matching (p (0xFE :: List.replicate 8 0)).code = true ∧
        unknownRule.known = false) ∧
      (orderRule .status = some statusRule ∧ statusRule.matching (p (0x01 :: List.replicate 8 0)).code = true ∧
        statusRule.known = true ∧ statusRule.fits (p (0x01 :: List.replicate 8 0)).params = false) ∧
      (orderRule .lockSlot = some lockSlotRule ∧ lockSlotRule.matching (p (0x13 :: List.replicate 9 0)).code = true ∧
        lockSlotRule.fits (p (0x13 :: List.replicate 9 0)).params = true ∧ lockSlotRule.passed .factory = false) ∧
      ((setUnitRule true).matching (p (0x04 :: List.replicate 10 0)).code = true ∧
        (setUnitRule true).fits (p (0x04 :: List.replicate 10 0)).params = true ∧ (setUnitRule true).passed .factory = true) ∧
      ((loadClearRule true).matching (p (0x03 :: List.replicate 28 0)).code = true ∧
        (loadClearRule true).fits (p (0x03 :: List.replicate 28 0)).params = true ∧ (loadClearRule true).passed .factory = true ∧
        byteAt (frameBody (orderFrame (0x03 :: List.replicate 28 0))) 0 = 0x03) := by
  refine ⟨rfl, ⟨rfl, ?_⟩, ⟨rfl, ?_⟩, ⟨rfl, ?_⟩, ?_, ?_⟩ <;> decide +kernel

/-- Meets the second part of OrdersAreAuthenticated. -/
theorem witness_decision :
    (handOf 0x13 [7]).handling = .comparing 0 tagJob ∧ tagJob.isLast = true ∧ (deciding 0x13 [7] unit).coreServes .order = true :=
  ⟨rfl, rfl, rfl⟩

/-- Meets the third part of OrdersAreAuthenticated: an order in each handling it names. -/
theorem witness_standing :
    (bareHand 0x01 [0] true).handling = .untagged ∧ (bareHand 0x01 [0] false).handling = .untagged ∧
      ∀ x ∈ [Handling.screened, .unmatched, .checking 1], ({ bareHand 0x03 [] false with handling := x } : OrderInHand).handling = x := by
  decide

/-- The unit whose last accepted order bears the number 1. -/
def unitSpent : State := { unit with store := { unit.store with lastOrder := 1 } }

/-- Meets UnacceptedOrderChangesNothing: an order met without a usable key, and an order whose number is not above the last. -/
theorem witness_unaccepted :
    Decides lockSlotRule { handOf 0x13 [7] with handling := .unmatched } .badTag
        { unit with order := { unit.order with hand := some { handOf 0x13 [7] with handling := .unmatched } } } ∧
      Decides lockSlotRule (handOf 0x13 [7]) .stale (deciding 0x13 [7] unitSpent) := by
  refine ⟨⟨rfl, rfl, ?_, rfl, by intro k hk; cases hk⟩, ⟨rfl, rfl, ?_, ?_, by intro k hk; cases hk⟩⟩
  · rw [show ({ handOf 0x13 [7] with handling := Handling.unmatched } : OrderInHand).code = (handOf 0x13 [7]).code from rfl, handOf_code]
    rfl
  · rw [handOf_code]; rfl
  · rw [standing_handOf _ _ _ (by decide +kernel)]; rfl

/-- Meets the clauses of AcceptedOrderIsChecked: an accepted order of unknown code, of a wrong length, in a custody state that does not
admit it, and without its grants; an unknown code met untagged. -/
theorem witness_checked :
    (∀ c ∈ [(0xFE, ([] : Bytes), Custody.operational), (0x13, [], .operational), (0x13, [7], .dormant)],
      (deciding c.1 c.2.1 (unitIn c.2.2)).standing (handOf c.1 c.2.1) = some .accepted) ∧
      unknownRule.matching (handOf 0xFE []).code = true ∧ lockSlotRule.fits (handOf 0x13 []).params = false ∧
      lockSlotRule.passed .dormant = false ∧ (Gate.mk [] none).satisfies 1 lockSlotRule.cls = false := by
  refine ⟨?_, by rw [handOf_code]; rfl, by rw [handOf_params]; rfl, rfl, rfl⟩
  intro c hc
  exact (standing_handOf c.1 c.2.1 (unitIn c.2.2) (by decide +kernel : (unit.slot 0).state = .active)).trans rfl

/-- Meets the clauses of AcceptedOrderIsChecked for an order without a tag: one that a zeroisation overtook, of unknown code, of a wrong
length and out of its custody state; a broadcast of a wrong length, and one in DORMANT. -/
theorem witness_checked_bare :
    (∀ c ∈ [(unknownRule, (0xFE : Byte), ([] : Bytes)), (lockSlotRule, 0x13, []), (lockSlotRule, 0x13, [7])],
      Decides c.1 (bareHand c.2.1 c.2.2 false) .untagged (bare c.2.1 c.2.2 false (unitIn .zeroised))) ∧
      (∀ c ∈ [(statusRule, (0x01 : Byte), ([] : Bytes)), (productionOffRule, 0x38, [])],
        Decides c.1 (bareHand c.2.1 c.2.2 true) .broadcast (bare c.2.1 c.2.2 true (unitIn .dormant))) ∧
      (unknownRule.known = false ∧ lockSlotRule.known = true ∧ statusRule.known = true) ∧
      (lockSlotRule.fits [] = false ∧ lockSlotRule.fits [7] = true ∧ statusRule.fits [] = false ∧ productionOffRule.fits [] = true) ∧
      (lockSlotRule.passed .zeroised = false ∧ productionOffRule.passed .dormant = false) := by
  refine ⟨?_, ?_, by decide, by decide, by decide⟩ <;> intro c hc <;>
    simp only [List.mem_cons, List.not_mem_nil, or_false] at hc
  · rcases hc with rfl | rfl | rfl <;> exact ⟨rfl, rfl, by decide +kernel, rfl, fun k hk => by cases hk⟩
  · rcases hc with rfl | rfl <;> exact ⟨rfl, rfl, by decide +kernel, rfl, fun k hk => by cases hk⟩

/-- Meets StoreScreensOrders: SETTLING, BUSY, SUSPENDED, for an accepted LOCK SLOT, an accepted BEGIN KEY, an untagged COMMISSION, and
ACK TAMPER in ZEROISED. -/
theorem witness_screen :
    let settling : State → State := fun s => { s with power := { s.power with settling := some 250 } }
    let busy : State → State := fun s => { s with store := { s.store with scrub := some .zeroise } }
    let suspended : State → State := fun s => s.setCause 1 true
    (∀ ps ∈ [[7]], Accepting lockSlotRule (handOf 0x13 ps) (deciding 0x13 ps (settling unit))) ∧
      (∀ ps ∈ [[7]], Accepting lockSlotRule (handOf 0x13 ps) (deciding 0x13 ps (busy unit))) ∧
      (∀ ps ∈ [List.replicate 14 7], Accepting beginKeyRule (handOf 0x10 ps) (deciding 0x10 ps (suspended unit))) ∧
      (∀ ps ∈ [[]], Handles (commissionRule true) (bareHand 0x05 ps false) .untagged (bare 0x05 ps false (settling State.reset))) ∧
      (∀ ps ∈ [[]], Handles (commissionRule true) (bareHand 0x05 ps false) .untagged (bare 0x05 ps false (busy State.reset))) ∧
      (∀ ps ∈ [[]], Handles (ackTamperRule true) (bareHand 0x1B ps false) .untagged (bare 0x1B ps false (settling (unitIn .zeroised)))) ∧
      (∀ ps ∈ [[]], Handles (ackTamperRule false) (bareHand 0x1B ps false) .untagged (bare 0x1B ps false (busy (unitIn .zeroised)))) ∧
      (settling unit).isSettling = true ∧ (busy unit).busy = true ∧ (suspended unit).suspended = true ∧ unit.busy = false ∧
      unit.isSettling = false :=
  ⟨accepting_all (by decide +kernel), accepting_all (by decide +kernel), accepting_all (by decide +kernel),
    handling_all (b := false) (by decide +kernel), handling_all (b := false) (by decide +kernel),
    handling_all (b := false) (by decide +kernel), handling_all (b := false) (by decide +kernel), by decide +kernel⟩


/-! ### Witnesses: the orders

Each names the unit and parameters that meet the hypotheses of one statement, at the boundary values of its clauses. -/

/-- The orders of these parameters are accepted at their decision. -/
abbrev Accepted (rule : OrderRule) (code : Byte) (pss : List Bytes) (s : State) : Prop :=
  ∀ ps ∈ pss, Accepting rule (handOf code ps) (deciding code ps s)

/-- The orders of these parameters are handled untagged, or as broadcasts, at their decision. -/
abbrev Bare (rule : OrderRule) (code : Byte) (pss : List Bytes) (broadcast : Bool) (s : State) : Prop :=
  ∀ ps ∈ pss, Handles rule (bareHand code ps broadcast) (if broadcast then .broadcast else .untagged) (bare code ps broadcast s)

/-- Meets StatusReports: accepted, untagged, broadcast; with the clear flag, without, and with the flag bytes 2 and 255. -/
theorem witness_status :
    Accepted statusRule 0x01 [[0], [1], [2], [255]] unit ∧ Bare statusRule 0x01 [[0], [1], [2], [255]] false State.reset ∧
      Bare statusRule 0x01 [[0], [1], [2], [255]] true unit :=
  ⟨accepting_all (by decide +kernel), handling_all (b := false) (by decide +kernel), handling_all (b := true) (by decide +kernel)⟩

/-- Meets GrantEntersGate: the gate holds grants of custodians 1 and 2 and the order's number is 1; targets 1 and 2; custodian 2 again,
and custodian 6. -/
theorem witness_grant :
    Accepted grantRule 0x02 [[6, 0, 0, 0, 1], [2, 0, 0, 0, 2], [6, 0, 0, 0, 2]] unit ∧
      (wordAt [6, 0, 0, 0, 1] 1).toNat = 1 ∧ (wordAt [6, 0, 0, 0, 2] 1).toNat = 2 ∧
      (deciding 0x02 [6, 0, 0, 0, 2] unit).order.gate.grants.map Grant.custodian = [1, 2] :=
  ⟨accepting_all (by decide +kernel), by decide +kernel⟩

/-- Meets SettingOrdersWrite: the least and the full notice mask, masks without TAMPER, without POWER and with a bit above; idle limits
0, 1 and 255; the timer started in OPERATIONAL and not in FACTORY. -/
theorem witness_setting :
    Accepted setTimeRule 0x48 [[0xFF, 0xFF, 0xFF, 0xFF]] unit ∧
      Accepted setNoticeMaskRule 0x49 [[1, 0x80], [1, 0xFF], [1, 0x7F], [0, 0xFF], [3, 0x80]] unit ∧
      Accepted setAlarmMaskRule 0x4A [[0xFF, 0xFF]] unit ∧ Accepted setIdleLimitRule 0x4B [[0], [1], [255]] unit ∧
      ([[1, 0x80], [1, 0xFF], [1, 0x7F], [0, 0xFF], [3, 0x80]].map fun ps =>
          (numAt ps 0 2).testBit 7 && (numAt ps 0 2).testBit 8 && decide (numAt ps 0 2 < 512)) =
        [true, true, false, false, false] ∧
      (unit.power.idleLimit ≠ 0 ∧ unit.store.custody = .operational ∧ State.reset.store.custody ≠ .operational) :=
  ⟨accepting_all (by decide +kernel), accepting_all (by decide +kernel), accepting_all (by decide +kernel),
    accepting_all (by decide +kernel), by decide +kernel, by decide⟩

/-- A FACTORY unit with slot 0 and custodian slots 1 and 2 ACTIVE. -/
def factory : State := { State.reset with store := { KeyStore.initial with slots := testSlots } }

/-- The parameters of LOAD CLEAR for a slot, with a check value. -/
def clearLoad (n : Byte) (check : Check) : Bytes := n :: (List.replicate 16 0 ++ be24 check.toNat)

/-- Meets CommissioningOrders: without the contact; slots 0 and 6, an agreeing and a wrong check value; slots 7, 63, 64 and
255; addresses 0, 30 and 31; two custodians and none. -/
theorem witness_commissioning :
    (Bare (loadClearRule false) 0x03 [clearLoad 0 0] false factory ∧ Bare (setUnitRule false) 0x04 [[0, 0]] false factory ∧
        Bare (commissionRule false) 0x05 [[]] false factory) ∧
      (Bare (loadClearRule true) 0x03
          [clearLoad 0 (checkValue 0), clearLoad 6 (checkValue 0), clearLoad 6 0, clearLoad 7 0, clearLoad 63 0, clearLoad 64 0,
            clearLoad 255 0]
          false factory ∧
        (∀ n ∈ [(0 : Byte), 6],
          checkValue (blockOfBytes (sliceBytes (clearLoad n (checkValue 0)) 1 16)) =
            checkOfBytes (sliceBytes (clearLoad n (checkValue 0)) 17 3)) ∧
        checkValue (blockOfBytes (sliceBytes (clearLoad 6 0) 1 16)) ≠ checkOfBytes (sliceBytes (clearLoad 6 0) 17 3)) ∧
      Bare (setUnitRule true) 0x04 [[0, 0], [30, 1], [31, 1]] false factory ∧
      (Bare (commissionRule true) 0x05 [[]] false factory ∧ Bare (commissionRule true) 0x05 [[]] false State.reset) ∧
      ((factory.slot 0).state = .active ∧ factory.activeCustodians = 2 ∧ (State.reset.slot 0).state ≠ .active) ∧
      factory.isSettling = false ∧ factory.busy = false :=
  ⟨⟨handling_all (b := false) (by decide +kernel), handling_all (b := false) (by decide +kernel),
      handling_all (b := false) (by decide +kernel)⟩,
    ⟨handling_all (b := false) (by decide +kernel), by decide +kernel⟩, handling_all (b := false) (by decide +kernel),
    ⟨handling_all (b := false) (by decide +kernel), handling_all (b := false) (by decide +kernel)⟩, by decide +kernel⟩

/-- The parameters of BEGIN KEY for a slot, a class and a number of components. -/
def begun (n c m : Byte) : Bytes := [n, c, m] ++ List.replicate 11 0

/-- Meets BeginKeyAssembles: slots 64, 6, 7 and 63; classes 6, CUSTODIAN and IMPORT; 1, 2, 3 and 4 components; a locked slot and one
that is not EMPTY. -/
theorem witness_begin_key :
    Accepted beginKeyRule 0x10
        [begun 64 2 2, begun 6 2 2, begun 13 6 2, begun 13 1 2, begun 13 2 1, begun 13 2 2, begun 62 4 3, begun 13 2 4, begun 15 2 2,
          begun 63 2 2, begun 7 2 2] unit ∧
      (unit.isSettling = false ∧ unit.busy = false ∧ unit.suspended = false) ∧
      ((unit.slot 15).lock = true ∧ (unit.slot 63).lock = false ∧ (unit.slot 63).state ≠ .empty) ∧
      ((unit.slot 7).lock = false ∧ (unit.slot 7).state ≠ .empty) ∧
      ((unit.slot 13).lock = false ∧ (unit.slot 13).state = .empty ∧ (unit.slot 62).lock = false ∧ (unit.slot 62).state = .empty) :=
  ⟨accepting_all (by decide +kernel), by decide +kernel⟩

/-- A unit whose slot 13 is an IMPORT key at its ceiling. -/
def unitImportSpent : State :=
  unit.setSlot 13 { keySlot .importing 9 with ceiling := 3, uses := { value := 3, limit := false } }

/-- A unit whose slot 12 assembles an IMPORT key. -/
def unitImportAssembly : State := unit.setSlot 12 { assembly with cls := some .importing }

/-- A unit whose slot 13 is an IMPORT key that is RETIRED. -/
def unitImportRetired : State := unit.setSlot 13 { keySlot .importing 9 with state := .retired }

/-- The steps of the Core are in order at the event of a decision. -/
theorem deciding_tidy (code : Byte) (ps : Bytes) (s : State) : CoreTidy (deciding code ps s) := by
  constructor
  · exact List.nodup_nil
  · intro k _ hk; cases hk
  · intro k hk; cases hk
  · intro k hk; cases hk
  · intro h; exact absurd rfl h

/-- The parameters of LOAD COMPONENT and of LOAD WRAPPED KEY. -/
def componentFor (n m : Byte) : Bytes := n :: m :: List.replicate 16 0
def wrappedFor (n c m : Byte) : Bytes := n :: c :: m :: List.replicate 27 0

/-- Meets the first part of LoadsPresentTheirUnwrap: slots 64 and 6; a slot that is not ASSEMBLING; unwrapping slots 64, 6 and 9,
which is no IMPORT key; an IMPORT key that is RETIRED, one at its ceiling, one that serves; custodian 2's own slot, for an assembly of
class IMPORT; a component whose custodian (2, of the latest grant) has already given one. -/
theorem witness_load_component :
    Accepted loadComponentRule 0x11
        [componentFor 64 7, componentFor 6 7, componentFor 13 7, componentFor 12 64, componentFor 12 6, componentFor 12 9,
          componentFor 12 13, componentFor 12 7] unitImportSpent ∧
      Accepted loadComponentRule 0x11 [componentFor 12 13] unitImportRetired ∧
      Accepted loadComponentRule 0x11 [componentFor 12 2] unitImportAssembly ∧
      Accepted loadComponentRule 0x11 [componentFor 12 7]
        (unit.setSlot 12 { assembly with components := some [1, 2], required := some 3 }) ∧
      CoreTidy (deciding 0x11 (componentFor 12 7) unitImportSpent) ∧
      (deciding 0x11 [12] unit).order.gate.custodian = 2 ∧
      (∀ s ∈ [unitImportSpent, unitImportRetired, unitImportAssembly],
        s.isSettling = false ∧ s.busy = false ∧ s.suspended = false ∧ (s.slot 12).state = .assembling) ∧
      (unitImportSpent.slot 13).state ≠ .assembling ∧
      ((unitImportSpent.slot 12).cls ≠ some .importing ∧ (unitImportSpent.slot 9).cls ≠ some .importing ∧
        (unitImportSpent.slot 7).state = .active ∧ (unitImportSpent.slot 7).cls = some .importing ∧
        (unitImportSpent.slot 7).underCeiling = true ∧ (unitImportSpent.slot 13).state = .active ∧
        (unitImportSpent.slot 13).cls = some .importing ∧ (unitImportSpent.slot 13).underCeiling = false ∧
        2 ∉ (unitImportSpent.slot 12).components.getD []) ∧
      ((unitImportRetired.slot 13).cls = some .importing ∧ (unitImportRetired.slot 13).state ≠ .active) ∧
      ((unitImportAssembly.slot 12).cls = some .importing ∧ (unitImportAssembly.slot 2).state = .active) ∧
      2 ∈ ((unit.setSlot 12 { assembly with components := some [1, 2], required := some 3 }).slot 12).components.getD [] :=
  ⟨accepting_all (by decide +kernel), accepting_all (by decide +kernel), accepting_all (by decide +kernel),
    accepting_all (by decide +kernel), deciding_tidy _ _ _, by decide +kernel, by decide +kernel, by decide +kernel,
    by decide +kernel, by decide +kernel, by decide +kernel, by decide +kernel⟩

/-- Meets the second part of LoadsPresentTheirUnwrap: slots 64, 6, 7 and 63; class bytes 0 and 6; a locked slot and one that is not
EMPTY; unwrapping slots 64, 6, RETIRED and at the ceiling; a key of class IMPORT and of class LINE for slot 8 under slot 7. -/
theorem witness_load_wrapped :
    Accepted loadWrappedKeyRule 0x12
        [wrappedFor 64 5 7, wrappedFor 6 5 7, wrappedFor 7 0 7, wrappedFor 63 6 7, wrappedFor 15 5 7, wrappedFor 63 5 7,
          wrappedFor 8 5 64, wrappedFor 8 5 6, wrappedFor 8 5 13, wrappedFor 8 2 7, wrappedFor 8 5 7] unitImportSpent ∧
      Accepted loadWrappedKeyRule 0x12 [wrappedFor 8 5 13] unitImportRetired ∧
      CoreTidy (deciding 0x12 (wrappedFor 8 5 7) unitImportSpent) ∧
      ((unitImportSpent.slot 15).lock = true ∧ (unitImportSpent.slot 63).lock = false ∧ (unitImportSpent.slot 63).state ≠ .empty ∧
        (unitImportSpent.slot 8).lock = false ∧ (unitImportSpent.slot 8).state = .empty) ∧
      ([KeyClass.importing, .prep, .line].map KeyClass.code) = [2, 3, 5] :=
  ⟨accepting_all (by decide +kernel), accepting_all (by decide +kernel), deciding_tidy _ _ _, by decide +kernel, rfl⟩

/-- A unit whose Core is at a load's step of this kind and stage. -/
def loading (k : LoadKind) (st : LoadStage) (z : Bool) (s : State) : State :=
  { s with
    order := { s.order with hand := some { handOf 0x11 [] with handling := .loading { kind := k, stage := st, zeroised := z } } }
    core := { work := .keyStore { user := .load, step := checkStep 3, counts := none } false, queue := [], engineWaits := none } }

/-- The result of that step as a check value. -/
def loadedCheck : Check := checkOfBlock (checkStep 3).result

/-- Meets each clause of the first part of LoadEnds: a load zeroised between, in its unwrap and in its check-value step; a component
that is not the last; the last with an agreeing and with a wrong check value; a whole key with each. -/
theorem witness_load_ends :
    (∀ s ∈ [loading (.component 13 2 false) (.unwrap 7 3 0) true unit, loading (.component 13 2 true) (.check 3) true unit,
        loading (.whole 13 .line 0 0 0) (.check 3) true unit,
        loading (.component 12 2 false) (.unwrap 7 3 0) false (unit.setSlot 12 { assembly with required := some 3 }),
        loading (.component 12 2 true) (.check 3) false (unit.setSlot 12 { assembly with expected := some loadedCheck }),
        loading (.component 12 2 true) (.check 3) false unit, loading (.whole 13 .line loadedCheck 0 0) (.check 3) false unit,
        loading (.whole 13 .line 0 0 0) (.check 3) false unit],
      s.coreServes .load = true ∧ s.core.queue = [] ∧ s.store.custody ≠ .dormant ∧ s.coreResult = (checkStep 3).result ∧
        deadlineReached s.time.millis 600000 = false ∧ (s.slot 12).deadline = some 600000 ∧ (s.slot 13).deadline = none) ∧
      (unit.slot 13).state ≠ .assembling ∧ ([1].length + 1 < 3) ∧ loadedCheck ≠ 0 ∧ (unit.slot 12).expected = some 0 := by
  decide +kernel

/-- Meets the second part of LoadEnds: in DORMANT, and with the deadline just reached; a component that is not the last, and the last
with an agreeing and with a wrong check value. -/
theorem witness_load_ends_late :
    let late : State → State := fun s => { s with time := { s.time with millis := 600000 } }
    (∀ s ∈ [loading (.component 12 2 false) (.unwrap 7 3 0) false (unitIn .dormant),
        loading (.component 12 2 false) (.unwrap 7 3 0) false (late unit),
        loading (.component 12 2 true) (.check 3) false (late (unit.setSlot 12 { assembly with expected := some loadedCheck })),
        loading (.component 12 2 true) (.check 3) false (unitIn .dormant)],
      s.coreServes .load = true ∧ s.core.queue = [] ∧ (s.slot 12).state = .assembling ∧ (s.slot 12).deadline = some 600000 ∧
        (s.store.custody = .dormant ∨ (s.time.millis - 600000).toNat < 2147483648)) := by
  decide +kernel

/-- Meets the first part of SlotOrdersChangeTheirSlot: slots locked, EMPTY and ACTIVE; slots a line and a run name, and slot 63 that
nothing names; ceilings at, above and away from the uses. -/
theorem witness_slot_orders :
    Accepted lockSlotRule 0x13 [[7], [63]] unit ∧ Accepted unlockSlotRule 0x14 [[7], [63]] unit ∧
      Accepted retireSlotRule 0x15 [[15], [8], [7], [63]] unit ∧ Accepted eraseSlotRule 0x16 [[15], [8], [9], [10], [63]] unit ∧
      Accepted setCeilingRule 0x17 [[8, 0, 0, 0, 0], [14, 0, 0, 0, 3], [14, 0, 0, 0, 4], [14, 0, 0, 0, 0]] unit ∧
      (unit.isSettling = false ∧ unit.busy = false) ∧
      ((unit.slot 15).lock = true ∧ (unit.slot 8).lock = false ∧ (unit.slot 8).state = .empty ∧ (unit.slot 63).lock = false ∧
        (unit.slot 63).state = .active ∧ (unit.slot 7).lock = false ∧ (unit.slot 7).state = .active) ∧
      ((unit.slot 9).state = .active ∧ (unit.line 0).keySlot = some 9 ∧ (unit.slot 10).state = .active ∧
        (∃ r ∈ unit.runs.table, r.state ≠ .closed ∧ r.master = 10)) ∧
      ((∀ r ∈ unit.runs.table, r.master ≠ 63 ∧ r.prep ≠ some 63) ∧ ∀ l, (unit.line l).keySlot ≠ some 63) ∧
      ((unit.slot 14).state = .active ∧ (unit.slot 14).uses.value = 3) :=
  ⟨accepting_all (by decide +kernel), accepting_all (by decide +kernel), accepting_all (by decide +kernel),
    accepting_all (by decide +kernel), accepting_all (by decide +kernel), by decide +kernel⟩

/-- Meets the second part of SlotOrdersChangeTheirSlot: WAKE in OPERATIONAL, and in DORMANT with slot 0 the first to be visited. -/
theorem witness_wake :
    Accepted wakeRule 0x19 [[]] unit ∧ Accepted wakeRule 0x19 [[]] (unitIn .dormant) ∧ ((unitIn .dormant).slot 0).state = .active ∧
      (unitIn .dormant).isSettling = false ∧ (unitIn .dormant).busy = false :=
  ⟨accepting_all (by decide +kernel), accepting_all (by decide +kernel), by decide +kernel⟩

/-- A full tamper record. -/
def fullRecord : List TamperEntry :=
  List.replicate 8 { source := .order, seconds := 0, millis := none, action := .zeroise, before := .operational }

/-- A unit whose engine works on a record of run 1 for line 0. -/
def unitWorking : State :=
  { unit with engine := some (takeWork { run := 1, seq := 1001, fields := [] } (runAt .live) 0 9) }

/-- Meets ZeroiseEmptiesTheStore, in OPERATIONAL and DORMANT, with an empty and with a full tamper record, with a record in the engine,
and with runs that named a general slot not EMPTY, LIVE and CLOSING. -/
theorem witness_zeroise :
    (Accepted zeroiseRule 0x1A [[]] unit ∧ Accepted zeroiseRule 0x1A [[]] (unitIn .dormant) ∧
        Accepted zeroiseRule 0x1A [[]] unitWorking ∧ Accepted zeroiseRule 0x1A [[]] (unitRun .closing) ∧
        Accepted zeroiseRule 0x1A [[]] { unit with tamper := { unit.tamper with record := fullRecord } }) ∧
      fullRecord.length = 8 ∧ unitWorking.engine ≠ none ∧
      ∀ r ∈ [runAt .live, runAt .closing], 7 ≤ r.master.val ∧ (unit.slot r.master).state ≠ .empty :=
  ⟨⟨accepting_all (by decide +kernel), accepting_all (by decide +kernel), accepting_all (by decide +kernel),
      accepting_all (by decide +kernel), accepting_all (by decide +kernel)⟩,
    rfl, by decide, by decide +kernel⟩

/-- The parameters of OPEN RUN: number, first, quantity, spoil rate, outcome timeout, postscaler, then master slot, prep slot, recipe
and group. -/
def opened (n q p t : Nat) (ps prep recipe : Byte) : Bytes :=
  be32 n ++ be32 0xFFFFFFFF ++ be32 q ++ be16 p ++ be32 t ++ [ps, 10, prep, recipe, 0]

/-- A recipe with a REWRAP. -/
def rewrapRecipe : List Action := [{ kind := .rewrap, source := 1, result := 1, repeats := 1, variant := 0, optional := true }]

/-- A unit with recipe 31 a REWRAP. -/
def unitRewrap : State := { unit with recipes := unit.recipes.set 31 (some rewrapRecipe) }

/-- A unit with a full Run Table. -/
def unitFull : State := { unit with runs := { unit.runs with table := List.replicate 16 (runAt .live) } }

/-- Meets OpenRunCreatesRun: a known number; a full table; quantities 1 and 2,000,000, rates 250 and 251, timeouts 0, 999, 1,000,
600,000 and 600,001, postscalers 0 and 1; without and with a prep slot. -/
theorem witness_open_run :
    Accepted openRunRule 0x20 [opened 1 1 0 0 1 0xFF 0] unit ∧ Accepted openRunRule 0x20 [opened 2 1 0 0 1 0xFF 0] unitFull ∧
      Accepted openRunRule 0x20
        [opened 2 1 250 1000 1 0xFF 0, opened 2 2000000 251 600001 0 0xFF 0, opened 2 7 0 999 1 11 31, opened 2 7 0 600000 1 11 31]
        unitRewrap ∧
      (unit.run 1 ≠ none ∧ unitFull.run 2 = none ∧ 16 ≤ unitFull.runs.table.length) ∧
      (unitRewrap.run 2 = none ∧ unitRewrap.runs.table.length < 16) ∧
      (unitRewrap.recipe 0 = some stampRecipe ∧ unitRewrap.recipe 31 = some rewrapRecipe ∧
        (¬∃ a ∈ stampRecipe, a.kind = .rewrap) ∧ ∃ a ∈ rewrapRecipe, a.kind = .rewrap) ∧
      ((unitRewrap.slot 10).state ≠ .empty ∧ (unitRewrap.slot 10).cls = some .master) ∧
      ((unitRewrap.slot 11).state ≠ .empty ∧ (unitRewrap.slot 11).cls = some .prep) ∧
      (let ps := opened 2 2000000 251 600001 0 0xFF 0
       (byteAt ps 21).toNat = 0 ∧ (byteAt ps 19).toNat = 10 ∧ byteAt ps 20 = keySlotByte none ∧ (byteAt ps 22).toNat = 0 ∧
        numAt ps 8 4 = 2000000 ∧ numAt ps 12 2 = 251 ∧ numAt ps 14 4 = 600001 ∧ (byteAt ps 18).toNat = 0) ∧
      (let ps := opened 2 7 0 999 1 11 31
       (byteAt ps 21).toNat = 31 ∧ byteAt ps 20 = keySlotByte (some 11) ∧ numAt ps 14 4 = 999) :=
  ⟨accepting_all (by decide +kernel), accepting_all (by decide +kernel), accepting_all (by decide +kernel), by decide +kernel⟩

/-- Run 1 spoils at its allowance and holds OVERSPOIL. -/
def unitOverspoilt : State :=
  { unit with
    runs := { unit.runs with
      table := [{ runAt .held with holds := { order := false, overspoil := true, key := false }, spoiled := 4, allowance := 2 }] } }

/-- Meets RunControlOrders: run 1 in each of its five states; extra allowance 0, 1, 2 and past the quantity. -/
theorem witness_run_control :
    (∀ st ∈ [RunState.defined, .live, .held, .closing, .closed],
      Accepted releaseRunRule 0x21 [be32 1] (unitRun st) ∧ Accepted holdRunRule 0x22 [be32 1] (unitRun st)) ∧
      Accepted addAllowanceRule 0x23 [be32 1 ++ [0, 0]] (unitRun .closed) ∧
      Accepted addAllowanceRule 0x23 [be32 1 ++ [0, 0], be32 1 ++ [0, 1], be32 1 ++ [0, 2], be32 1 ++ [0, 98], be32 1 ++ [0, 99]]
        unitOverspoilt ∧
      (∀ s ∈ [unitRun .defined, unitRun .live, unitRun .held, unitRun .closing, unitRun .closed, unitOverspoilt],
        (s.runs.table.map Run.number).Nodup ∧ ∃ r ∈ s.runs.table, r.number = wordAt (be32 1) 0) ∧
      ([[0, 0], [0, 1], [0, 99]].map fun e => numAt (be32 1 ++ e) 4 2) = [0, 1, 99] := by
  refine ⟨?_, accepting_all (by decide +kernel), accepting_all (by decide +kernel), by decide +kernel, by decide +kernel⟩
  intro st hst
  simp only [List.mem_cons, List.not_mem_nil, or_false] at hst
  rcases hst with rfl | rfl | rfl | rfl | rfl <;>
    exact ⟨accepting_all (by decide +kernel), accepting_all (by decide +kernel)⟩

/-- A unit with one more run, of 3 cards. -/
def unitSmall : State := { unit with runs := { unit.runs with table := [{ runAt .held with quantity := 3, low := 1 }] } }

/-- The unit with run 1 LIVE and card 1's record staged. -/
def unitOneStaged : State := { unit with runs := { unit.runs with staging := [{ run := 1, seq := 1001, fields := [] }] } }

/-- Run 1 CLOSING with nothing OUT and nothing STAGED; run 1 of two cards, DONE and VOID, LIVE and CLOSED. -/
def closingRun : Run := { runAt .closing with window := ((freshWindow 100).set 3 (some voidCard)).set 4 (some lateCard) }
def settledRun (st : RunState) : Run :=
  { runAt st with
    quantity := 2, window := ((freshWindow 2).set 0 (some { Position.fresh with state := .done })).set 1 (some voidCard) }

/-- Meets the closing clauses of RunEndingOrders: a LIVE run with a staged record, a CLOSING and a CLOSED one; the closing test of a
run with a card OUT, of one not CLOSING, and of one that closes; a low mark that reaches the quantity and one that does not. -/
theorem witness_closing :
    (∀ s ∈ [unitOneStaged, unitRun .closing, unitRun .closed], (s.runs.table.map Run.number).Nodup) ∧
      Accepted closeRunRule 0x24 [be32 1] unitOneStaged ∧
      (runAt .live ∈ unitOneStaged.runs.table ∧ runAt .closing ∈ (unitRun .closing).runs.table ∧
        runAt .closed ∈ (unitRun .closed).runs.table ∧ (runAt .live).number = wordAt (be32 1) 0) ∧
      (1 ≤ (runAt .closing).countState .out ∧ (runAt .live).state ≠ .closing) ∧
      (closingRun.state = .closing ∧ closingRun.countState .out = 0 ∧ closingRun.countState .staged = 0) ∧
      ((runAt .live).advance.low ≠ (runAt .live).quantity ∧ (settledRun .live).advance.low = (settledRun .live).quantity ∧
        (settledRun .closed).state = .closed) :=
  ⟨by decide +kernel, accepting_all (by decide +kernel), by decide +kernel, by decide +kernel, by decide +kernel, by decide +kernel⟩

/-- Meets RunEndingOrders: run 1 LIVE, CLOSING, CLOSED; offsets at both ends of the window, past the run and below the low mark;
positions OPEN, STAGED, OUT, VOID, SPOILED, DONE. -/
theorem witness_run_ending :
    (Accepted closeRunRule 0x24 [be32 1] unit ∧ Accepted closeRunRule 0x24 [be32 1] (unitRun .closing) ∧
        Accepted closeRunRule 0x24 [be32 1] (unitRun .closed)) ∧
      Accepted writeOffCardRule 0x25 ([0, 1, 2, 3, 4, 5, 63, 64].map fun o => be32 1 ++ be32 (1000 + o)) unit ∧
      Accepted writeOffCardRule 0x25 ([0, 2, 3].map fun o => be32 1 ++ be32 (1000 + o)) unitSmall ∧
      Accepted writeOffCardRule 0x25 [be32 1 ++ be32 1000] (unitRun .closed) ∧
      Accepted deleteRunRule 0x26 [be32 1] unit ∧ Accepted deleteRunRule 0x26 [be32 1] (unitRun .closed) ∧
      unit.run 1 = some (runAt .live) ∧ (unitRun .closing).run 1 = some (runAt .closing) ∧
      (unitRun .closed).run 1 = some (runAt .closed) ∧
      ([0, 1, 2, 3, 4, 5, 63, 64].map fun o => ((runAt .live).position o).map Position.state) =
        [some .opened, some .staged, some .out, some .voided, some .spoiled, some .done, some .opened, none] ∧
      ((wordAt (be32 1 ++ be32 1063) 4 - (runAt .live).first).toNat = 63) :=
  ⟨⟨accepting_all (by decide +kernel), accepting_all (by decide +kernel), accepting_all (by decide +kernel)⟩,
    accepting_all (by decide +kernel), accepting_all (by decide +kernel), accepting_all (by decide +kernel),
    accepting_all (by decide +kernel), accepting_all (by decide +kernel), by decide +kernel⟩

/-- Meets ReadingOrdersReport: each of the reading orders, READ RECIPE of a defined and an undefined entry, READ SLOT of slots 0, 63 and
64. -/
theorem witness_reading :
    (Accepted readRunRule 0x27 [be32 1] unit ∧ unit.run (wordAt (be32 1) 0) = some (runAt .live)) ∧
      (Accepted readRecipeRule 0x29 [[0], [31]] unit ∧ unit.recipe 0 = some stampRecipe ∧ unit.recipe 31 = none) ∧
      Accepted readLineRule 0x39 [[0, 0], [7, 1]] unit ∧ Accepted readLinkErrorsRule 0x3A [[]] unit ∧
      Accepted readTamperRecordRule 0x44 [[]] unit ∧ Bare readTamperRecordRule 0x44 [[]] false State.reset ∧
      Accepted readSlotRule 0x18 [[0], [63], [64], [255]] unit :=
  ⟨⟨accepting_all (by decide +kernel), by decide +kernel⟩, ⟨accepting_all (by decide +kernel), by decide +kernel⟩,
    accepting_all (by decide +kernel), accepting_all (by decide +kernel), accepting_all (by decide +kernel),
    handling_all (b := false) (by decide +kernel), accepting_all (by decide +kernel)⟩

/-- Two actions, the first with the given repeat. -/
def twoActions (n result : Nat) : List Action :=
  [{ kind := .copy, source := 0, result := 0, repeats := n, variant := 0, optional := true },
    { kind := .stamp, source := 0, result := result, repeats := 1, variant := 0, optional := false }]

/-- The parameters of DEFINE RECIPE. -/
def defined (n : Nat) (actions : List Action) : Bytes := [byteOf n, byteOf actions.length] ++ actions.flatMap Action.report

/-- Meets DefineRecipeWritesEntry: an entry a run names; repeats 0, 16 and 1; tags that meet and tags that do not. -/
theorem witness_define_recipe :
    Accepted defineRecipeRule 0x28
        [defined 0 (twoActions 1 1), defined 31 (twoActions 0 16), defined 31 (twoActions 16 16), defined 31 (twoActions 16 15)] unit ∧
      (∃ r ∈ unit.runs.table, r.state ≠ .closed ∧ r.recipe = 0) ∧ (¬∃ r ∈ unit.runs.table, r.state ≠ .closed ∧ r.recipe = 31) ∧
      (∀ given ∈ [twoActions 0 16, twoActions 16 16, twoActions 16 15],
        1 ≤ given.length ∧ given.length ≤ 16 ∧
          ∀ a ∈ given, a.source < 256 ∧ a.result < 256 ∧ a.repeats ≤ 16 ∧ (a.kind = .stamp ∨ a.kind = .outTag → a.repeats = 1)) ∧
      ((twoActions 16 16).flatMap fun a => (List.range a.repeats).map fun i => byteOf (a.result + i)).Nodup ∧
      ¬((twoActions 16 15).flatMap fun a => (List.range a.repeats).map fun i => byteOf (a.result + i)).Nodup :=
  ⟨accepting_all (by decide +kernel), by decide +kernel⟩

/-- Meets LineSettingOrders: lines 0 and 7, key slots none, 9 and 63, credits 1, 8 and 9, groups none and all; groups A, D and 4. -/
theorem witness_line_setting :
    Accepted setLineRule 0x30 [[0, 0xFF, 1, 0], [7, 9, 8, 15], [7, 63, 9, 15]] unit ∧
      Accepted setGroupMembersRule 0x31 [[0, 0xFF], [3, 0], [4, 0]] unit ∧
      Accepted setGroupKeyRule 0x32 [[0, 63], [3, 0xFF], [4, 9]] unit ∧
      Accepted setGroupCreditRule 0x33 [[0, 1], [3, 8], [0, 9], [4, 1]] unit ∧
      (9 : Byte) = keySlotByte (some 9) ∧ (63 : Byte) = keySlotByte (some 63) ∧ (0xFF : Byte) = keySlotByte none ∧
      (unit.slot 9).state ≠ .empty ∧ (unit.slot 9).cls = some .line ∧ (unit.slot 63).state ≠ .empty ∧
      (unit.slot 63).cls = some .line ∧ unit.inGroup 0 0 = true :=
  ⟨accepting_all (by decide +kernel), accepting_all (by decide +kernel), accepting_all (by decide +kernel),
    accepting_all (by decide +kernel), by decide +kernel⟩

/-- Meets LineStateOrders: lines 0, 7 and 8; PRODUCTION OFF as an order and as a broadcast. -/
theorem witness_line_state :
    Accepted barLineRule 0x34 [[0], [7], [8]] unit ∧ Accepted unbarLineRule 0x35 [[0], [7], [8]] unit ∧
      Accepted clearLineRule 0x36 [[0], [7], [8]] unit ∧ Accepted productionOnRule 0x37 [[]] unit ∧
      Accepted productionOffRule 0x38 [[]] unit ∧ Bare productionOffRule 0x38 [[]] true unit :=
  ⟨accepting_all (by decide +kernel), accepting_all (by decide +kernel), accepting_all (by decide +kernel),
    accepting_all (by decide +kernel), accepting_all (by decide +kernel), handling_all (b := true) (by decide +kernel)⟩

/-- A unit whose sensor has this record. -/
def unitSensor (i : SensorNo) (x : Sensor) : State := unit.setSensor i x

/-- A sensor of this status, enabled, SUSPEND and TRANSIENT, with its input active. -/
def sensorAt (st : SensorStatus) (q : Nat) (input : Bool) : Sensor :=
  { enable := true, polarity := .activeHigh, mode := .transient, action := .suspend, qualification := q, alarmMasked := false,
    status := st, timer := if st = .qualifying then some q else none, input := input }

/-- Meets the first part of SensorAndCabinetOrders: each status; an input that is active and one that is not; qualification 0, 1, 255.
-/
theorem witness_set_sensor :
    Accepted setSensorRule 0x40 [[5, 0, 0, 1, 1, 0, 0], [5, 1, 0, 1, 1, 1, 0], [5, 1, 0, 1, 1, 255, 1], [5, 1, 0, 1, 1, 0, 0]]
        (unitSensor 5 (sensorAt .idle 0 true)) ∧
      Accepted setSensorRule 0x40 [[5, 1, 1, 1, 1, 9, 0], [5, 1, 0, 1, 1, 1, 0], [5, 1, 0, 0, 0, 0, 0]]
        (unitSensor 5 (sensorAt .qualifying 9 true)) ∧
      Accepted setSensorRule 0x40 [[5, 1, 0, 0, 0, 0, 0]] (unitSensor 5 (sensorAt .latched 0 true)) ∧
      Accepted setSensorRule 0x40 [[5, 1, 0, 0, 0, 0, 0], [5, 1, 1, 0, 0, 0, 0]] (unitSensor 5 (sensorAt .tripped 0 true)) ∧
      ([SensorStatus.idle, .qualifying, .latched, .tripped].map fun st => ((unitSensor 5 (sensorAt st 0 true)).sensor 5).status) =
        [.idle, .qualifying, .latched, .tripped] ∧
      ({ sensorAt .idle 0 true with polarity := .activeLow } : Sensor).active = false ∧ (sensorAt .idle 0 true).active = true :=
  ⟨accepting_all (by decide +kernel), accepting_all (by decide +kernel), accepting_all (by decide +kernel),
    accepting_all (by decide +kernel), by decide +kernel⟩

/-- The unit with the maintenance window open, S0 as given. -/
def openUnit (x : Sensor) : State := { unitSensor 0 x with tamper := { (unitSensor 0 x).tamper with window := some 60000 } }

/-- Meets the second part of SensorAndCabinetOrders: sensor 6, and a byte of 2 for each field that is a list. -/
theorem witness_set_sensor_refused :
    Accepted setSensorRule 0x40
        ([6, 0, 0, 0, 0, 0, 0] :: [1, 2, 3, 4, 6].map fun i => ([5, 0, 0, 0, 0, 0, 0] : Bytes).set i 2) unit ∧
      (∀ i ∈ [1, 2, 3, 4, 6], 2 ≤ (byteAt (([5, 0, 0, 0, 0, 0, 0] : Bytes).set i 2) i).toNat) :=
  ⟨accepting_all (by decide +kernel), by decide +kernel⟩

/-- Meets the third part of SensorAndCabinetOrders: 0, 1, 30 and 31 minutes, S0 QUALIFYING and not; CLOSE CABINET with no window, and
with one while S0 is not to be considered, trips at once, and begins to qualify. -/
theorem witness_cabinet :
    Accepted openCabinetRule 0x42 [[0], [1], [30], [31]] unit ∧
      Accepted openCabinetRule 0x42 [[1]] (unitSensor 0 (sensorAt .qualifying 1 true)) ∧
      Accepted closeCabinetRule 0x43 [[]] unit ∧ Accepted closeCabinetRule 0x43 [[]] (openUnit (sensorAt .idle 1 false)) ∧
      Accepted closeCabinetRule 0x43 [[]] (openUnit (sensorAt .idle 0 true)) ∧
      Accepted closeCabinetRule 0x43 [[]] (openUnit (sensorAt .idle 1 true)) ∧
      unit.tamper.window = none ∧ (openUnit (sensorAt .idle 1 true)).tamper.window ≠ none ∧
      ((openUnit (sensorAt .idle 1 false)).sensor 0).active = false ∧ ((openUnit (sensorAt .idle 0 true)).sensor 0).active = true ∧
      ((openUnit (sensorAt .idle 1 true)).sensor 0).qualification ≠ 0 :=
  ⟨accepting_all (by decide +kernel), accepting_all (by decide +kernel), accepting_all (by decide +kernel),
    accepting_all (by decide +kernel), accepting_all (by decide +kernel), accepting_all (by decide +kernel), by decide +kernel⟩

/-- Meets TamperIsReleased: RESUME with a sensor to release and with none; ACK TAMPER in OPERATIONAL, and in ZEROISED with the contact
and without it. -/
theorem witness_release :
    Accepted resumeRule 0x41 [[]] unit ∧ Accepted resumeRule 0x41 [[]] (unitSensor 5 (sensorAt .latched 0 false)) ∧
      (∀ i, ¬((unit.sensor i).status = .latched ∧ (unit.sensor i).active = false)) ∧
      (∃ i, ((unitSensor 5 (sensorAt .latched 0 false)).sensor i).status = .latched ∧
        ((unitSensor 5 (sensorAt .latched 0 false)).sensor i).active = false) ∧
      Accepted (ackTamperRule true) 0x1B [[]] unit ∧ Accepted (ackTamperRule false) 0x1B [[]] unit ∧
      Bare (ackTamperRule true) 0x1B [[]] false (unitIn .zeroised) ∧ Bare (ackTamperRule false) 0x1B [[]] false (unitIn .zeroised) ∧
      unit.store.custody = .operational ∧ (unitIn .zeroised).store.custody = .zeroised ∧ unit.isSettling = false ∧ unit.busy = false :=
  ⟨accepting_all (by decide +kernel), accepting_all (by decide +kernel), by decide +kernel, by decide +kernel,
    accepting_all (by decide +kernel), accepting_all (by decide +kernel), handling_all (b := false) (by decide +kernel),
    handling_all (b := false) (by decide +kernel), by decide +kernel⟩

/-! ### Witnesses: frames, ports, outcomes, lapses -/

/-- A sealed frame. -/
def frameOf (kind : Byte) (u : Nat) (body : Bytes) : Bytes := sealFrame (frameHeader kind u body.length 1 ++ body)

/-- Meets UpstreamFramesAreClassified: a frame too short, a wrong frame check, a wrong kind, a RECORD for unit 30, ORDERs for unit 32,
for all units with another code than STATUS and PRODUCTION OFF, for unit 30 at the chain end; for this unit, for unit 30 below it, and
the broadcast. -/
theorem witness_upstream :
    (unit.power.supply = .main ∧ unit.link.upLink = true ∧ unit.link.onwardQueue.length < 8 ∧ unit.order.hand = none ∧ unit.quiet) ∧
      lengthFault [1, 2, 3] = true ∧ (lengthFault (frameHeader 2 0 0 1 ++ [0, 0, 0, 0]) = false ∧
        checkFault (frameHeader 2 0 0 1 ++ [0, 0, 0, 0]) = true) ∧
      (∀ f ∈ [frameOf 3 0 [], frameOf 1 30 [], frameOf 2 32 [], frameOf 2 31 (0x02 :: List.replicate 8 0), frameOf 2 30 [],
          frameOf 2 0 [], frameOf 2 31 (0x38 :: List.replicate 8 0), frameOf 2 31 (0x01 :: List.replicate 8 0)],
        lengthFault f = false ∧ checkFault f = false) ∧
      ([frameOf 3 0 [], frameOf 1 30 [], frameOf 2 32 [], frameOf 2 30 [], frameOf 2 0 []].map fun f =>
          (byteAt f 0, (byteAt f 1).toNat)) =
        [(3, 0), (1, 30), (2, 32), (2, 30), (2, 0)] ∧
      unit.link.address = 0 ∧ unit.link.chainEnd = true ∧
      ((frameBody (frameOf 2 31 (0x38 :: List.replicate 8 0))).length = 9 ∧
        byteAt (frameBody (frameOf 2 31 (0x38 :: List.replicate 8 0))) 0 = 0x38) :=
  ⟨⟨by decide, by decide, by decide, by decide, quiet_of_idle rfl rfl⟩, by decide +kernel⟩

/-- The same unit, not at the chain end. -/
def unitMiddle : State := { unit with link := { unit.link with chainEnd := false } }

/-- A RECORD frame of one field. -/
def recordFrame (n seq : Nat) : Bytes := frameOf 1 31 (be32 n ++ be32 seq ++ [1, 7, 1, 0x41])

/-- A unit with a full Staging Queue. -/
def unitStaged : State :=
  { unit with runs := { unit.runs with staging := List.replicate 32 { run := 1, seq := 1001, fields := [] } } }

/-- Meets RecordsAreAdmitted: bodies of 0, 4 and 8 bytes; an unknown run at the chain end and before it; a malformed body; a run not
LIVE; SUSPENDED; offsets past the run, below and above the window; each position state at its own offset; a full Staging Queue. -/
theorem witness_records :
    (∀ s ∈ [unit, unitMiddle, unitRun .held, unit.setCause 0 true, unitSmall, unitStaged],
      s.power.supply = .main ∧ s.link.upLink = true ∧ s.link.onwardQueue.length < 8 ∧ s.order.hand = none ∧
        (∀ f ∈ [frameOf 1 31 [], frameOf 1 31 (be32 1), frameOf 1 31 (be32 1 ++ be32 1000), frameOf 1 31 (be32 1 ++ be32 1000 ++ [0]),
            recordFrame 2 1, recordFrame 1 1000, recordFrame 1 1001, recordFrame 1 1002, recordFrame 1 1003, recordFrame 1 1004,
            recordFrame 1 1005, recordFrame 1 1063, recordFrame 1 1064, recordFrame 1 1100],
          s.upFault f = none ∧ byteAt f 0 = 0x01) ∧
        s.core.queue = [] ∧ (s.runs.table.map Run.number).Nodup) ∧
      (unit.run 2 = none ∧ unitMiddle.run 2 = none ∧ unit.link.chainEnd = true ∧ unitMiddle.link.chainEnd = false) ∧
      ((frameBody (frameOf 1 31 (be32 1 ++ be32 1000 ++ [0]))).length = 9 ∧
        recordFields (frameBody (frameOf 1 31 (be32 1 ++ be32 1000 ++ [0]))) = none) ∧
      recordFields (frameBody (recordFrame 1 1000)) = some [{ tag := 7, value := [0x41] }] ∧
      ((unitRun .held).run 1 = some (runAt .held) ∧ (unit.setCause 0 true).suspended = true ∧ unit.run 1 = some (runAt .live)) ∧
      ([1000, 1001, 1002, 1003, 1004, 1005, 1063, 1064, 1100].map fun n =>
          (wordAt (frameBody (recordFrame 1 n)) 4 - (runAt .live).first).toNat) =
        [0, 1, 2, 3, 4, 5, 63, 64, 100] ∧
      (let r : Run := { runAt .live with low := 1 }
       0 < r.low ∧ r.low + 64 ≤ 65 ∧ 64 < r.quantity) ∧
      32 ≤ unitStaged.runs.staging.length := by decide +kernel

/-- The unit with frames waiting at its record ports and transmitters busy. -/
def unitBusyPorts : State :=
  { unit with link := { unit.link with onwardQueue := [[1], [2]], upTx := some [3], onTx := some [4] } }

/-- A line with a frame to send. -/
def lineWith (sending linkUp : Bool) : Line :=
  { testLine with transmit := [{ run := 1, seq := 1002, frame := [1] }], sending := sending, linkUp := linkUp }

/-- Meets PortsMoveFrames: a frame too short, a wrong check, a wrong kind, an ANSWER, a NOTICE; free and busy transmitters; a line
that is ready to send, sending, and down. -/
theorem witness_ports :
    (unit.power.supply = .main ∧ unit.link.onLink = true ∧ unit.link.upLink = true ∧ unit.link.relayQueue.length < 8) ∧
      lengthFault [1, 2, 3] = true ∧ checkFault (frameHeader 3 0 0 1 ++ [0, 0, 0, 0]) = true ∧
      (∀ f ∈ [frameOf 1 0 [], frameOf 3 0 [], frameOf 4 0 []], lengthFault f = false ∧ checkFault f = false) ∧
      (({ unitBusyPorts with link := { unitBusyPorts.link with onTx := none } } : State).link.onTx = none ∧
        unitBusyPorts.link.onwardQueue = [1] :: [[2]] ∧ unitBusyPorts.link.onTx ≠ none ∧ unitBusyPorts.link.upTx ≠ none) ∧
      ((lineWith false true).linkUp = true ∧ (lineWith false true).sending = false ∧ (lineWith false true).transmit ≠ [] ∧
        (lineWith true true).sending = true ∧ (lineWith false false).linkUp = false) ∧
      (∀ x, (unit.setLine 7 x).line 7 = x) ∧ unit.quiet :=
  ⟨by decide, by decide, by decide +kernel, by decide +kernel, by decide, by decide, fun x => by rfl, quiet_of_idle rfl rfl⟩

/-- Meets each clause of UpstreamArbiterRotates: the three sources with a frame waiting, each served after each that may precede it. -/
theorem witness_arbiter :
    let s : Source → Bool → Bool → Bool → State := fun last a n r =>
      { unit with
        order := { unit.order with answer := if a then some [1] else none }
        report := { unit.report with notices := if n then [Notice.firstPower] else [] }
        link := { unit.link with relayQueue := if r then [[2]] else [], served := last } }
    (∀ last ∈ [Source.relay, .notice, .answer], ∀ a ∈ [true, false], ∀ n ∈ [true, false], ∀ r ∈ [true, false],
      (s last a n r).power.supply = .main ∧ (s last a n r).link.upLink = true ∧ (s last a n r).link.upTx = none) ∧
      Notice.firstPower.tag = .ready 0 := by decide

/-- An OUTCOME frame. -/
def outcomeFrame (n seq : Nat) (code : Byte) : Bytes := frameOf 6 0 (be32 n ++ be32 seq ++ [code])

/-- Meets OutcomesAreTaken on L0: faults of each kind, result bytes 0 and 4 among them; each result; an unknown run, a card outside
the window, one OUT on L0, one late on L0, and one that is neither. -/
theorem witness_outcomes :
    unit.power.supply = .main ∧ (unit.line 0).linkUp = true ∧ lengthFault [1] = true ∧
      (lengthFault (frameHeader 6 0 0 1 ++ [0, 0, 0, 0]) = false ∧ checkFault (frameHeader 6 0 0 1 ++ [0, 0, 0, 0]) = true) ∧
      (∀ f ∈ [frameOf 5 0 [], frameOf 6 0 (List.replicate 8 0), frameOf 6 0 (List.replicate 10 0), outcomeFrame 1 1002 0,
          outcomeFrame 1 1002 4, outcomeFrame 2 1 1,
          outcomeFrame 1 1100 2, outcomeFrame 1 1002 3, outcomeFrame 1 1004 1, outcomeFrame 1 1000 1],
        lengthFault f = false ∧ checkFault f = false) ∧
      ([1, 2, 3].map fun c => byteAt (frameBody (outcomeFrame 1 1002 c)) 8) =
        [CardResult.done.code, CardResult.spoiled.code, CardResult.rejected.code] ∧
      ([0, 4].map fun c => byteAt (frameBody (outcomeFrame 1 1002 c)) 8) = [0, 4] ∧
      (frameBody (outcomeFrame 1 1002 1)).length = 9 ∧
      (unit.run 2 = none ∧ unit.run 1 = some (runAt .live) ∧ (runAt .live).position 100 = none ∧
        (runAt .live).position 2 = some outCard ∧ (runAt .live).position 4 = some lateCard) ∧
      (outCard.state = .out ∧ outCard.line = some 0 ∧ lateCard.lateEligible = true ∧ lateCard.lapsedLine = some 0 ∧
        Position.fresh.lateEligible = false) := by decide +kernel

/-- A card OUT on L0 for the fourth time, and run 1 with it in place 2. -/
def lastCard : Position := { outCard with attempt := 4 }
def lastRun (st : RunState) : Run := { runAt st with window := (runAt st).window.set 2 (some lastCard) }

/-- Meets SettlementKeepsTheBooks: the spoils below, at and past the allowance; a first and a fourth attempt; a progress below the
postscaler and at it; a run that is not CLOSING, and one that is. -/
theorem witness_settlement :
    ((lastRun .closing).position 2 = some lastCard ∧ (lastRun .closing).state = .closing ∧
        ((({ unit with runs := { unit.runs with table := [lastRun .closing] } } : State).runs.table).map Run.number).Nodup) ∧
      ({ runAt .live with progress := 9 } : Run).postscaler ≤ ({ runAt .live with progress := 9 } : Run).progress + 1 ∧
    (unit.runs.table.map Run.number).Nodup ∧ runAt .live ∈ unit.runs.table ∧ (runAt .live).position 2 = some outCard ∧
      (runAt .live).state ≠ .closing ∧ (runAt .live).progress + 1 < (runAt .live).postscaler ∧
      (let o := 2
       let p : Position := { outCard with state := .done, line := none, dispatched := none }
       ({ runAt .live with window := ((runAt .live).setPosition o (some p)).window } : Run).lowSettled = false) ∧
      (runAt .live).low ≠ (runAt .live).quantity ∧ outCard.attempt ≠ 4 ∧
      ¬(runAt .live).allowance < (runAt .live).spoiled + 1 ∧
      ({ runAt .live with spoiled := 2 } : Run).allowance < ({ runAt .live with spoiled := 2 } : Run).spoiled + 1 := by
  decide +kernel

/-- The unit 1,000 ms on, run 1's outcome timer having run out; and 1 ms before. -/
def unitLater (ms : Word) : State := { unit with time := { unit.time with millis := ms } }

/-- Meets OutcomeTimerLapses: position 2 OUT since 0 with a timeout of 1,000, at 999 and at 1,000; position 0 not OUT; a fourth attempt,
of a CLOSING run. -/
theorem witness_lapse :
    (∀ s ∈ [unitLater 999, unitLater 1000], s.power.supply = .main ∧ (s.runs.table.map Run.number).Nodup ∧
      runAt .live ∈ s.runs.table) ∧
      (∀ ms, (unitLater ms).quiet) ∧
      ((runAt .live).position 2 = some outCard ∧ (runAt .live).position 0 = some Position.fresh ∧ outCard.state = .out ∧
        outCard.line = some 0 ∧ outCard.dispatched = some 0 ∧ Position.fresh.state ≠ .out ∧ outCard.attempt ≠ 4 ∧
        (runAt .live).state ≠ .closing ∧ (runAt .live).timeout = 1000) ∧
      ¬((unitLater 999).time.millis - (0 + BitVec.ofNat 32 1000)).toNat < 2147483648 ∧
      ((unitLater 1000).time.millis - (0 + BitVec.ofNat 32 1000)).toNat < 2147483648 ∧
      ((lastRun .closing).position 2 = some lastCard ∧ lastCard.attempt = 4 ∧ lastCard.state = .out ∧ lastCard.line = some 0 ∧
        lastCard.dispatched = some 0 ∧ (lastRun .closing).timeout = 1000) :=
  ⟨by decide +kernel, fun _ => quiet_of_idle rfl rfl, by decide +kernel, by decide +kernel, by decide +kernel, by decide +kernel⟩

/-- Meets LowMarkAdvances: a low mark at 0, and one at the quantity. -/
theorem witness_low_mark :
    (runAt .live).low ≤ (runAt .live).quantity ∧
      ({ runAt .closed with low := 100 } : Run).low ≤ ({ runAt .closed with low := 100 } : Run).quantity := by decide

/-! ### Witnesses: the engine -/

/-- A record staged for run 1's card 1, and one of an unknown run before it. -/
def waitingRecord : StagedRecord := { run := 1, seq := 1001, fields := [] }
def strangeRecord : StagedRecord := { run := 9, seq := 1, fields := [] }

/-- The unit with these staged. -/
def unitWaiting : State := { unit with runs := { unit.runs with staging := [strangeRecord, waitingRecord] } }

/-- A recipe of one action of a kind, and how the walk of that record ends under it: 0 waiting for a step, 1 failed, 2 complete. -/
def recipeOf (k : ActionKind) : List Action :=
  [{ kind := k, source := 1, result := 1, repeats := 1, variant := 0, optional := false }]
def walkedTo (k : ActionKind) : Nat :=
  match (walk (expandRecipe (recipeOf k)) (takeWork waitingRecord (runAt .live) 0 9) unitWaiting).1 with
  | .waits _ _ => 0
  | .fails _ _ => 1
  | .completes _ => 2

/-- Meets EngineTakesTheOldestEligible: nothing eligible, and an eligible record behind one that is not, L0 the line with credit; walks
that wait, fail and complete within the event. -/
theorem witness_take :
    (∀ x ∈ unit.runs.staging, unit.eligible x = false) ∧ unitWaiting.engine = none ∧
      unitWaiting.runs.staging = [strangeRecord] ++ waitingRecord :: [] ∧ unitWaiting.eligible strangeRecord = false ∧
      unitWaiting.eligible waitingRecord = true ∧ unitWaiting.run 1 = some (runAt .live) ∧ unitWaiting.chooseLine 0 = some 0 ∧
      (unitWaiting.line 0).keySlot = some 9 ∧ unitWaiting.recipe 0 = some stampRecipe ∧ (unitWaiting.line 0).occupied = 2 ∧
      walkedTo .outTag = 0 ∧ walkedTo .copy = 1 ∧ walkedTo .stamp = 2 := by
  decide +kernel

/-- The walk of a record whose DERIVE waits for its first step. -/
def derivingWork : Work :=
  { run := 1, seq := 1001, fields := [{ tag := 1, value := List.replicate 16 0x35 }], line := 0, keySlot := 9, attempt := 1,
    recipe := 0,
    todo := [{ action := 1, kind := .derive, source := 1, result := 1, variant := 0, optional := false }], output := [], size := 10,
    waiting := .deriveKey 7 }

/-- The unit with that record in the engine, waiting in the given place, its step in the Core. -/
def unitDeriving (w : Waiting) (discarded : Bool) : State :=
  { unit with
    engine := if discarded then none else some { derivingWork with waiting := w }
    core := { work := .engine { fn := .enc, key := 1, block := 7 } discarded, queue := [], engineWaits := none } }

/-- Meets EngineStepGoesOn: a discarded step; a result after which the walk waits, and one after which it completes. -/
theorem witness_engine_step :
    (unitDeriving (.deriveKey 7) true).core.work = .engine { fn := .enc, key := 1, block := 7 } true ∧
      (unitDeriving (.deriveKey 7) false).core.work = .engine { fn := .enc, key := 1, block := 7 } false ∧
      (unitDeriving (.deriveKey 7) false).engine = some { derivingWork with waiting := .deriveKey 7 } ∧
      (unitDeriving (.deriveCheck 5) false).engine = some { derivingWork with waiting := .deriveCheck 5 } ∧
      (∀ w d, (unitDeriving w d).quiet) :=
  ⟨rfl, rfl, rfl, rfl, fun _ _ => quiet_of_idle rfl rfl⟩

/-- Meets RecordLeavesTheEngine: the record of card 1, STAGED for the first time, of a LIVE and of a CLOSING run. -/
theorem witness_record_leaves :
    (unit.runs.table.map Run.number).Nodup ∧ runAt .live ∈ unit.runs.table ∧ (runAt .live).number = derivingWork.run ∧
      (runAt .live).position ((runAt .live).offset derivingWork.seq) = some stagedCard ∧ stagedCard.state = .staged ∧
      (runAt .live).state ≠ .closing ∧
      (((unitRun .closing).runs.table.map Run.number).Nodup ∧ runAt .closing ∈ (unitRun .closing).runs.table ∧
        (runAt .closing).position ((runAt .closing).offset derivingWork.seq) = some stagedCard ∧ (runAt .closing).state = .closing) := by
  decide +kernel

/-! ### Witnesses: the Key Store side, timers, sensors, power -/

/-- The unit with a Key Store side step of this user in the Core, for this order and these notices. -/
def serving (u : KsUser) (d : Bool) (x : Option Handling) (ns : List Notice) : State :=
  { unit with
    order := { unit.order with hand := x.map fun y => { handOf 0x11 [] with handling := y } }
    report := { unit.report with notices := ns }
    core := { work := .keyStore { user := u, step := tagStep, counts := none } d, queue := [], engineWaits := none } }

/-- A tag with one and with two blocks to go, and a notice that waits for it. -/
def shortJob : TagJob := { key := 1, chain := 0, blocks := [0] }
def longJob : TagJob := { key := 1, chain := 0, blocks := [0, 0] }
def waitingNotice (j : TagJob) : Notice := { message := [], tag := .computing j }

/-- Meets KeyStoreSideStepsGoOn, clause by clause. -/
theorem witness_key_store_side :
    (∀ u d x ns, (serving u d x ns).quietQueue) ∧ (∀ u d ns, (serving u d none ns).quiet) ∧
      (∀ u x ns, (serving u false x ns).coreServes u = true) ∧
      (2 ≤ longJob.blocks.length ∧ shortJob.blocks.length ≤ 1) ∧
      ((unit.slot 12).required = some (((unit.slot 12).components.getD []).length + 1)) ∧
      ((serving .report false none [Notice.firstPower, waitingNotice longJob]).report.notices =
        [Notice.firstPower] ++ waitingNotice longJob :: []) ∧
      (∃ tag, Notice.firstPower.tag = .ready tag) :=
  ⟨fun u d x ns k hk => (by cases hk), fun _ _ _ => quiet_of_idle rfl rfl, fun u x ns => by cases u <;> rfl, by decide, by decide +kernel,
    rfl, ⟨0, rfl⟩⟩

/-- The unit at a time, with a gate, an inhibit and an idle timer of 1 or 2 minutes whose deadlines are 60,000, and 1,000 ticks. -/
def unitTimed (ms : Word) (minutes : Nat) : State :=
  { unit with
    time := { unit.time with millis := ms, ticks := 1000 }
    order := { unit.order with gate := { grants := [⟨1, 1, 0⟩], deadline := some 60000 } }
    power := { unit.power with settling := some 60000, idle := some { minutes := minutes, deadline := 60000 } } }

/-- Meets TimersExpire: the seconds clock at 1,000 and 999 ticks, with main power and on battery; each deadline reached and 1 ms short
of it; slot 12 ASSEMBLING with its deadline at 600,000, and a LOAD COMPONENT in hand for it. -/
theorem witness_timers :
    (∀ ms m, (unitTimed ms m).quiet) ∧ (unitTimed 60000 1).power.supply = .main ∧ (unitTimed 60000 1).power.valid = true ∧
      (unitTimed 60000 1).store.custody = .operational ∧
      ((unit.slot 12).state = .assembling ∧ (unit.slot 12).deadline = some 600000) ∧
      ((60000 - 60000 : Word).toNat < 2147483648 ∧ ¬(59999 - 60000 : Word).toNat < 2147483648 ∧
        (600000 - 600000 : Word).toNat < 2147483648 ∧ ¬(599999 - 600000 : Word).toNat < 2147483648) ∧
      (∀ m : Nat, (unitTimed 60000 m).power.idle = some { minutes := m, deadline := 60000 }) ∧
      (∃ (s : State) (h : OrderInHand) (l : Load), s.order.hand = some h ∧ h.handling = .loading l ∧ l.kind = .component 12 1 true) ∧
      (let battery : State := { unitTimed 0 1 with power := { unit.power with supply := .battery } }
       battery.power.valid = true ∧ 1000 ≤ battery.time.ticks ∧ unit.power.valid = true ∧ unit.time.ticks < 1000) :=
  ⟨fun _ _ => quiet_of_idle rfl rfl, by decide, by decide, by decide, by decide +kernel, by decide, fun _ => rfl,
    ⟨unit.hold { handOf 0x11 [12] with
        handling := .loading { kind := .component 12 1 true, stage := .unwrap 1 2 3, zeroised := false } }, _, _, rfl, rfl, rfl⟩,
    by decide⟩

/-- The unit verifying a slot. -/
def unitVerifying (c : VerifyCause) (n : SlotNo) : State :=
  { unit with
    store := { unit.store with verify := some { cause := c, slot := n, damaged := 0 } }
    core := { work := .keyStore { user := .verify, step := checkStep 1, counts := none } false, queue := [], engineWaits := none } }

/-- Meets LongOperationsComplete: slot 0, after which slot 1 follows, and slot 63, the last, for both causes; both scrubs, with a
verify waiting for each and without. -/
theorem witness_long_operations :
    (∀ c n, (unitVerifying c n).quiet ∧ (unitVerifying c n).coreServes .verify = true ∧
      (unitVerifying c n).store.verify = some { cause := c, slot := n, damaged := 0 }) ∧
      ((unit.slot 1).state = .active ∧ ∀ m : SlotNo, ¬(63 < m.val)) ∧
      (∃ s : State, s.quiet ∧ s.store.verifyWaits = false ∧ s.store.scrub = some (.erase 63)) ∧
      (∃ s : State, s.quiet ∧ s.store.verifyWaits = false ∧ s.store.scrub = some .zeroise) ∧
      (∀ w, ({ unit with store := { unit.store with scrub := w, verifyWaits := true } } : State).quiet) ∧
      ((unit.slot 0).state = .active ∧ ∀ m : SlotNo, (State.reset.slot m).state ≠ .active ∧ (State.reset.slot m).state ≠ .retired) :=
  ⟨fun _ _ => ⟨quiet_of_idle rfl rfl, rfl, rfl⟩, ⟨by decide +kernel, fun m => by omega⟩,
    ⟨{ unit with store := { unit.store with scrub := some (.erase 63) } }, quiet_of_idle rfl rfl, rfl, rfl⟩,
    ⟨{ unit with store := { unit.store with scrub := some .zeroise } }, quiet_of_idle rfl rfl, rfl, rfl⟩,
    fun _ => quiet_of_idle rfl rfl, by decide +kernel⟩

/-- Meets SensorsQualifyAndTrip: S5 and S0, each status, qualification 0 and 1, inputs of both levels, the window open and closed;
the window's end with S0 not to be considered, and with S0 armed, qualification 0 and 1. -/
theorem witness_sensors :
    (∀ i x, (unitSensor i x).quiet ∧ (unitSensor i x).power.valid = true) ∧ (openUnit (sensorAt .idle 0 false)).quiet ∧
      ((sensorAt .idle 0 false).active = false ∧ (sensorAt .idle 1 false).active = false ∧ (sensorAt .idle 0 true).active = true) ∧
      (∀ st ∈ [SensorStatus.idle, .qualifying, .tripped, .latched],
        ((unitSensor 5 (sensorAt st 0 true)).sensor 5).status = st ∧ ((unitSensor 5 (sensorAt st 0 true)).sensor 5).active = true) ∧
      (unitSensor 5 (sensorAt .idle 0 false)).tamper.window = none ∧
      (sensorAt .qualifying 0 true).timer = some 0 ∧
      ({ openUnit (sensorAt .idle 0 false) with
        tamper := { (openUnit (sensorAt .idle 0 false)).tamper with window := some 0 } } : State).tamper.window = some 0 ∧
      (∀ q ∈ [0, 1], ((openUnit (sensorAt .idle q true)).sensor 0).active = true ∧
        ((openUnit (sensorAt .idle q true)).sensor 0).enable = true ∧
        ((openUnit (sensorAt .idle q true)).sensor 0).status = .idle ∧
        ((openUnit (sensorAt .idle q true)).sensor 0).qualification = q) :=
  ⟨fun _ _ => ⟨quiet_of_idle rfl rfl, rfl⟩, quiet_of_idle rfl rfl, by decide, by decide +kernel, rfl, rfl, rfl, by decide +kernel⟩

/-- Meets TripActs' clauses: SUSPEND and ZEROISE, a record with room and a full one, ZEROISED and not; each with main power and on
battery, with a record in the engine and its step in the Core, with orders in hand that a zeroisation overtakes. -/
theorem witness_trip :
    ((∀ x : Sensor, ({ unitSensor 5 x with power := { unit.power with supply := .battery } } : State).sensor 5 = x) ∧
        (unitDeriving (.deriveKey 7) false).engine ≠ none ∧ unit.engine = none ∧
        (deciding 0x13 [7] unit).order.hand = some (handOf 0x13 [7])) ∧
    (unit.tamper.record.length < 8 ∧ ¬fullRecord.length < 8) ∧ (sensorAt .idle 0 true).action = .suspend ∧
      ({ sensorAt .idle 0 true with action := .zeroise } : Sensor).action = .zeroise ∧ unit.store.custody ≠ .zeroised ∧
      (unitIn .zeroised).store.custody = .zeroised :=
  ⟨⟨fun x => setSensor_sensor_self unit 5 x, by simp [unitDeriving], rfl, rfl⟩, by decide⟩

/-- Meets SupplyIsLostAndReturns: main power up, a valid battery domain without main power; a scrub in progress and none; slot 0
the first to be visited, and none to visit; a verify in progress, of each cause, at a slot that is visited; a usable slot and one at its
ceiling. -/
theorem witness_supply :
    unit.power.supply = .main ∧
      (let s : State := { unit with power := { unit.power with supply := .battery } }
       s.power.supply = .battery ∧ s.power.valid = true ∧ s.store.scrub = none ∧ (s.slot 0).state = .active ∧
        ∀ m : SlotNo, ¬m.val < 0) ∧
      ({ unit with
        power := { unit.power with supply := .battery }, store := { unit.store with scrub := some .zeroise } } : State).store.scrub ≠
        none ∧
      (∀ n, (State.reset.slot n).state ≠ .active ∧ (State.reset.slot n).state ≠ .retired) ∧
      ((unit.slot 9).ceiling = 0 ∧ (unit.slot 14).state = .active ∧ (unit.slot 14).ceiling ≠ 0 ∧
        ¬(unit.slot 14).uses.value < (unit.slot 14).ceiling) ∧
      (∀ c : VerifyCause, (unitVerifying c 63).store.verify = some { cause := c, slot := 63, damaged := 0 } ∧
        ((unitVerifying c 63).slot 63).visited = true) ∧
      ((List.finRange 64).countP fun n => decide ((unit.slot n).state = .assembling)) = 1 := by
  refine ⟨by decide, ⟨by decide, by decide, by decide, by decide +kernel, fun m => by omega⟩, by decide, by decide +kernel,
    by decide +kernel, fun c => ⟨rfl, ?_⟩, by decide +kernel⟩
  cases c <;> decide +kernel

/-- A record at an instance of this kind, with a source of this length under tag 1, its body this large. -/
def workAt (k : ActionKind) (length size : Nat) (w : Waiting) : Work :=
  { derivingWork with
    fields := [{ tag := 1, value := List.replicate length 0x35 }], size := size, waiting := w,
    todo := [{ action := 1, kind := k, source := 1, result := 1, variant := 0, optional := false }] }

/-- Meets InstancesTransformFields: an absent source under tag 2; bodies that just hold the field and that are one byte too large;
identities of 16 and 11 digits; sources of 16, 64 and 65 bytes; uses granted under each class and refused; each place of an instance in
progress. -/
theorem witness_instances :
    (workAt .copy 200 798 (.deriveKey 7)).source 2 = none ∧
      ((workAt .copy 200 798 (.deriveKey 7)).source 1 = some (List.replicate 200 0x35) ∧ 798 + 2 + 200 ≤ 1000 ∧ ¬799 + 2 + 200 ≤ 1000) ∧
      (986 + 2 + 12 ≤ 1000 ∧ ¬987 + 2 + 12 ≤ 1000 ∧ 990 + 2 + 8 ≤ 1000 ∧ ¬991 + 2 + 8 ≤ 1000 ∧ 979 + 2 + 19 ≤ 1000 ∧
        ¬980 + 2 + 19 ≤ 1000 ∧ 934 + 2 + 64 ≤ 1000 ∧ ¬935 + 2 + 64 ≤ 1000) ∧
      (validIdentity (List.replicate 16 0x35) = true ∧ validIdentity (List.replicate 11 0x35) = false) ∧
      (∃ r, unit.run derivingWork.run = some r ∧ r.master = 10) ∧
      ((requestUse 10 .derivation unit).1.toOption = some 5 ∧ (requestUse 9 .wrap unit).1.toOption = some 4 ∧
        (requestUse 11 .unwrap unit).1.toOption = some 6 ∧ (requestUse 14 .wrap unit).1.toOption = none) ∧
      ({ runAt .live with prep := some 11 } : Run).prep = some 11 ∧
      (workAt .outTag 1 10 (.outTag { key := 1, chain := 0, blocks := [0] })).todo ≠ [] :=
  ⟨by decide +kernel, by decide +kernel, by decide, by decide, ⟨runAt .live, by decide +kernel, rfl⟩, by decide +kernel,
    rfl, by decide⟩

/-! ### Single steps

Expected values are worked out by hand from the rules named. -/

/-- The state a command leaves, `s` itself if it leaves none. -/
def after (c : Instr) (s : State) : State :=
  match exec c s with
  | .next t => t
  | _ => s

/-- R142, R151, 12.1: the whole answer frame of a SET UNIT order; its frame check is that of the polynomial of 6.1, worked out apart
from the model. -/
theorem test_set_unit_answer :
    (after (.setUnit true) (bare 0x04 [5, 1] false State.reset)).order.answer =
      some [0x03, 0x05, 0x00, 0x0C, 0x00, 0x00, 0x00, 0x01, 0x04, 0x00, 0x00, 0x01, 0x00, 0x00, 0x00, 0x00, 0x00, 0x00, 0x00, 0x00,
        0xC2, 0x05, 0xC5, 0x15] := by decide +kernel

/-- R137, R141: in FACTORY an ORDER frame for this unit comes into hand without a tag, and the unit stops being ready. -/
theorem test_order_in_hand :
    let t := after (.orderFrame (frameOf 2 0 (0x44 :: List.replicate 8 0))) State.reset
    (t.order.hand.map OrderInHand.handling = some .screened) ∧ t.upstreamReady = false := by decide +kernel

/-- R141: in FACTORY an order of OPERATIONAL is refused NOT PERMITTED at the event of its hand-over. -/
theorem test_refused_at_hand_over :
    (after (.orderFrame (frameOf 2 0 (0x13 :: List.replicate 9 0))) State.reset).order.answer.map (fun f => sliceBytes f 8 2) =
      some [0x13, 0x13] := by decide +kernel

/-- R152, R187: a broadcast STATUS starts the idle timer, one refused RANGE does not. -/
theorem test_broadcast_status :
    ([[0], [2]].map fun ps => (after .status (bare 0x01 ps true unit)).power.idle.map IdleTimer.minutes) = [some 60, none] := by
  decide +kernel

/-- R42: a load zeroised in its unwrap step still presents its check-value step. -/
theorem test_zeroised_load :
    let t := after .keyStoreSideCipherStep (loading (.whole 13 .line 0 0 0) (.unwrap 7 3 0) true unit)
    t.order.answer = none ∧ (match t.core.work with | .keyStore k _ => decide (k.user = .load) | _ => false) = true := by
  decide +kernel

/-- R126: the last byte of a frame changed, the frame check fails and its flag is set. -/
theorem test_broken_frame :
    let f := frameOf 2 0 (0x44 :: List.replicate 8 0)
    (after (.upstreamFrameError (f.dropLast ++ [f.getLastD 0 + 1])) State.reset).link.upFlags =
      { UpFlags.clear with frameCheck := true } := by decide +kernel

/-- R64, R116: a DONE outcome of the card OUT on L0 returns its credit and counts it. -/
theorem test_outcome_done :
    let t := after (.outcome 0 (outcomeFrame 1 1002 1)) unit
    (t.line 0).occupied = 1 ∧ t.runs.table.map Run.done = [2] ∧ t.runs.table.map Run.progress = [1] := by decide +kernel

/-- R52, R67: a lapse of the same card spoils it, the second of an allowance of 2, and the run stays LIVE. -/
theorem test_lapse :
    let t := after (.lapse 1 2) (unitLater 1000)
    t.runs.table.map Run.spoiled = [2] ∧ t.runs.table.map Run.lapsed = [2] ∧ t.runs.table.map Run.state = [.live] ∧
      (t.line 0).consecutive = 1 := by decide +kernel

/-- R90, R91, R84: a record admitted to an idle engine with a STAMP recipe completes at that event: run, sequence number, attempt 1,
line 0, recipe 0, 00H, after the header and 10 bytes of the body. -/
theorem test_stamp_record :
    let t := after (.record (recordFrame 1 1000)) unit
    (t.line 0).transmit.map (fun c => sliceBytes c.frame 8 24) =
        [[0, 0, 0, 1, 0, 0, 3, 0xE8, 1, 0, 1, 12, 0, 0, 0, 1, 0, 0, 3, 0xE8, 1, 0, 0, 0]] ∧
      t.runs.table.map Run.issues = [4] ∧ (t.line 0).occupied = 3 := by decide +kernel

/-- R57, 12.4: a duplicate is refused with a REFUSAL notice of reason 06H. -/
theorem test_duplicate :
    (after (.record (recordFrame 1 1002)) unit).report.notices.map (fun n => sliceBytes n.message 8 11) =
      [[0x02, 0x06, 0, 0, 0, 1, 0, 0, 3, 0xEA, 0x06]] := by decide +kernel

/-- R155, R156: an enabled sensor with qualification 0 trips at once, and the unit is SUSPENDED. -/
theorem test_sensor_trips :
    let t := after (.sensorInputActive 5) (unitSensor 5 (sensorAt .idle 0 false))
    (t.sensor 5).status = .tripped ∧ t.suspended = true ∧ t.tamper.record.length = 1 := by decide +kernel

/-- R180, R181, R183: power lost and returned leaves the keys, not the runs, and the settling inhibit runs. Slot 0 is EMPTY here: with a
notice's tag to compute beside the verify's first step, R32 leaves their order open. -/
theorem test_power_returns :
    let t := after .mainRestore (after .mainLoss (unit.setSlot 0 (Slot.blank false)))
    (t.slot 9).state = .active ∧ (t.slot 12).state = .empty ∧ t.runs.table = [] ∧ t.power.settling = some 250 := by decide +kernel

/-- R131, R137: the answer slot's frame leaves after a relayed one was served last, and the Order Unit is free. -/
theorem test_answer_leaves :
    let t := after .upstreamTransmitChoice { unit with order := { unit.order with answer := some [1], hand := some (handOf 1 [0]) } }
    t.link.upTx = some [1] ∧ t.order.hand = none ∧ t.link.served = .answer := by decide +kernel

/-- R171: the seconds clock is moved by a full count of ticks, and not by one tick less. -/
theorem test_seconds :
    (after .secondsClockAdvance (unitTimed 0 1)).time.seconds.value = 1 ∧
      (after .secondsClockAdvance { unit with time := { unit.time with ticks := 999 } }).time.seconds.value = 0 := by decide +kernel

end Sys2Proof.Tests
end

section
/-! Proofs. In ZEROISED every slot stays EMPTY (R28, R29). The invariant reads of the unit its custody state, the states of its slots, the
verify and the order in hand; `Undisturbed` says that an operation leaves these as they are, and each operation that does not is taken
up on its own. -/

namespace Sys2Proof.Machine

/-! ### What the invariant reads -/

/-- All that `ZeroisedEmpty` reads of the unit is as it was. -/
structure Undisturbed (s t : State) : Prop where
  custody : t.store.custody = s.store.custody
  slots : ∀ n, (t.slot n).state = (s.slot n).state
  verify : t.store.verify = s.store.verify
  hand : t.order.hand = s.order.hand

theorem Undisturbed.refl (s : State) : Undisturbed s s := ⟨rfl, fun _ => rfl, rfl, rfl⟩

theorem Undisturbed.trans {s t u : State} (h : Undisturbed s t) (k : Undisturbed t u) : Undisturbed s u :=
  ⟨k.custody.trans h.custody, fun n => (k.slots n).trans (h.slots n), k.verify.trans h.verify, k.hand.trans h.hand⟩

/-- An operation that keeps the store and the Order Unit leaves all the invariant reads. -/
theorem Undisturbed.of_eq {s t : State} (hs : t.store = s.store) (ho : t.order = s.order) : Undisturbed s t :=
  ⟨by rw [hs], fun n => by rw [State.slot, hs]; rfl, by rw [hs], by rw [ho]⟩

/-- What comes after such an operation is judged from where it began. -/
theorem Undisturbed.after {s t u : State} (h : Undisturbed t u) (hs : t.store = s.store) (ho : t.order = s.order) :
    Undisturbed s u := (of_eq hs ho).trans h

theorem NoticesOnly.undisturbed {s t : State} (h : NoticesOnly s t) : Undisturbed s t := .of_eq h.store h.order

theorem ZeroisedEmpty.undisturbed {s t : State} (h : ZeroisedEmpty s) (k : Undisturbed s t) : ZeroisedEmpty t := by
  intro hc
  obtain ⟨hslots, hverify, hhand⟩ := h (k.custody.symm.trans hc)
  exact ⟨fun n => (k.slots n).trans (hslots n), k.verify.trans hverify, by rw [k.hand]; exact hhand⟩

/-- Outside ZEROISED the invariant asks for nothing. -/
theorem zeroisedEmpty_of_custody {s : State} (h : s.store.custody ≠ .zeroised) : ZeroisedEmpty s := fun hc => absurd hc h

/-- The invariant asks of the order in hand that it is no load with its results, no check of LOAD CLEAR, and, screened, one that passes
in ZEROISED (R42, R141). -/
def OrderInHand.FitsZeroised (h : OrderInHand) : Prop :=
  (∀ l, h.handling = .loading l → l.zeroised = true) ∧ (∀ key, h.handling ≠ .checking key) ∧
    (h.handling = .screened → h.code ∈ zeroisedCodes)

/-- A unit whose store is as the invariant asks, with an order in hand that fits ZEROISED, or none. -/
theorem ZeroisedEmpty.with_hand {s t : State} (h : ZeroisedEmpty s) (hs : t.store = s.store)
    (hh : t.store.custody = .zeroised → ∀ x, t.order.hand = some x → x.FitsZeroised) : ZeroisedEmpty t := by
  intro hc
  obtain ⟨hslots, hverify, -⟩ := h (by rw [← hs]; exact hc)
  exact ⟨fun n => by rw [State.slot, hs]; exact hslots n, by rw [hs]; exact hverify, hh hc⟩

theorem ZeroisedEmpty.fits {s : State} (h : ZeroisedEmpty s) (hc : s.store.custody = .zeroised) {x : OrderInHand}
    (hx : s.order.hand = some x) : x.FitsZeroised := (h hc).2.2 x hx

/-! ### The Cipher Core and the engine -/

theorem setSlot_undisturbed {s : State} {n : SlotNo} {k : Slot} (h : k.state = (s.slot n).state) : Undisturbed s (s.setSlot n k) := by
  refine ⟨rfl, fun m => ?_, rfl, rfl⟩
  rw [setSlot_slot]
  split
  · next e => rw [← e, h]
  · rfl

/-- A counted use changes no slot's state (R20). -/
theorem countUse_undisturbed (n : SlotNo) (s : State) : Undisturbed s (s.countUse n) := by
  have set : Undisturbed s (s.setSlot n { s.slot n with uses := bumpCounter max32 (s.slot n).uses }) := setSlot_undisturbed rfl
  unfold State.countUse
  simp only []
  split
  · exact set.trans ((lineNotices_only _ _).undisturbed.after rfl rfl)
  · exact set

theorem beginStep_undisturbed (s : State) : Undisturbed s (beginStep s) := by
  unfold beginStep
  split
  · exact .refl s
  · split
    · simp only []
      split
      · exact .of_eq rfl rfl
      · split
        · exact (countUse_undisturbed _ _).after rfl rfl
        · exact .of_eq rfl rfl
    · split
      · exact .refl s
      · exact .of_eq rfl rfl

/-- The sharing of the Core changes no slot's state (R32). -/
theorem settleCore_undisturbed (s : State) : Undisturbed s (settleCore s) := by
  have begun : Undisturbed s (beginStep (presentSteps s)) := (beginStep_undisturbed _).after rfl rfl
  exact begun.trans (.of_eq rfl rfl)

/-- Outside OPERATIONAL a request for a use of a key changes nothing (R20). -/
theorem requestUse_not_operational {s : State} (h : s.store.custody ≠ .operational) (n : SlotNo) (u : UseKind) :
    (requestUse n u s).2 = s := by
  simp [requestUse, h]

theorem requestStep_not_operational {s : State} (h : s.store.custody ≠ .operational) (w : Work) (n : Option SlotNo) (u : UseKind)
    (f : Block → Waiting × CipherStep) : (requestStep w n u f s).2 = s := by
  cases n with
  | none => rfl
  | some n =>
    have hu := requestUse_not_operational h n u
    unfold requestStep
    rcases hr : requestUse n u s with ⟨_ | _, t⟩ <;> simpa [hr] using hu

/-- Outside OPERATIONAL a walk changes nothing of the unit (R20, R92). -/
theorem walk_not_operational {s : State} (h : s.store.custody ≠ .operational) (xs : List ActionInst) (w : Work) :
    (walk xs w s).2 = s := by
  induction xs generalizing w with
  | nil => rfl
  | cons a rest ih =>
    unfold walk
    simp only []
    cases a.kind with
    | stamp => simp only []; split; exacts [rfl, ih _]
    | outTag => simp only []; split; exacts [rfl, requestStep_not_operational h _ _ _ _]
    | copy =>
      simp only []
      split
      · split; exacts [ih _, rfl]
      · split; exacts [rfl, ih _]
    | derive | rewrap =>
      simp only []
      split
      · split; exacts [ih _, rfl]
      · split
        · rfl
        · split; exacts [rfl, requestStep_not_operational h _ _ _ _]

theorem finishInstance_not_operational {s : State} (h : s.store.custody ≠ .operational) (v : Bytes) (w : Work) :
    (finishInstance v w s).2 = s := by
  unfold finishInstance; split <;> exact walk_not_operational h _ _

theorem resume_not_operational {s : State} (h : s.store.custody ≠ .operational) (v : Block) (w : Work) : (resume v w s).2 = s := by
  unfold resume
  split
  · exact requestStep_not_operational h _ _ _ _
  · rfl
  · exact finishInstance_not_operational h _ _
  · exact requestStep_not_operational h _ _ _ _
  · exact finishInstance_not_operational h _ _
  · exact requestStep_not_operational h _ _ _ _
  · split
    · exact finishInstance_not_operational h _ _
    · rfl

theorem closeTest_undisturbed (n : Word) (s : State) : Undisturbed s (closeTest n s) := by
  obtain ⟨table, report, h⟩ := closeTest_only n s
  rw [h]; exact .of_eq rfl rfl

theorem failRecord_undisturbed (w : Work) (x : FailReason) (s : State) : Undisturbed s (failRecord w x s) := by
  obtain ⟨table, report, h⟩ := failRecord_only w x s
  rw [h]; exact .of_eq rfl rfl

theorem endWalk_undisturbed (e : WalkEnd × State) : Undisturbed e.2 (endWalk e) := by
  unfold endWalk
  split
  · exact .of_eq rfl rfl
  · exact failRecord_undisturbed _ _ _
  · exact (closeTest_undisturbed _ _).after rfl rfl

/-- A record in the engine that a suspension or a zeroisation aborts takes nothing of the store with it (R96). -/
theorem abortRecord_undisturbed (s : State) : Undisturbed s (abortRecord s) := by
  unfold abortRecord
  split
  · exact .refl s
  · exact (failRecord_undisturbed _ _ _).after rfl rfl

/-- Outside OPERATIONAL no record is eligible, and the engine takes none (R90). -/
theorem engineTake_not_operational {s : State} (h : s.store.custody ≠ .operational) : engineTake s = s := by
  have none_eligible : ∀ x ∈ s.runs.staging, ¬s.eligible x = true := by
    intro x _
    unfold State.eligible
    split
    · simp
    · simp [State.runEligible, h]
  have no_take : s.nextTake = none := by
    unfold State.nextTake
    rw [List.find?_eq_none.2 none_eligible]
  unfold engineTake
  cases s.runs.staging.length with
  | zero => rfl
  | succ n => simp only [takeLoop, no_take, ite_self]

/-- The engine's takes keep the invariant: a unit that is OPERATIONAL stays so, and in any other custody state nothing is taken. -/
theorem ZeroisedEmpty.engineTake {s : State} (h : ZeroisedEmpty s) : ZeroisedEmpty (engineTake s) := by
  by_cases hc : s.store.custody = .operational
  · exact zeroisedEmpty_of_custody (by rw [(engineTake_apart s).custody, hc]; decide)
  · rw [engineTake_not_operational hc]; exact h

theorem ZeroisedEmpty.settleCore {s : State} (h : ZeroisedEmpty s) : ZeroisedEmpty (settleCore s) :=
  h.undisturbed (settleCore_undisturbed s)

theorem ZeroisedEmpty.settleUnit {s : State} (h : ZeroisedEmpty s) : ZeroisedEmpty (settleUnit s) := h.engineTake.settleCore

/-! ### The store's own operations -/

theorem foldl_undisturbed {α : Type} {f : State → α → State} (hf : ∀ t a, Undisturbed t (f t a)) (xs : List α) (s : State) :
    Undisturbed s (xs.foldl f s) := by
  induction xs generalizing s with
  | nil => exact .refl s
  | cons a rest ih => exact (hf s a).trans (ih (f s a))

/-- A lapse empties a slot, which is EMPTY in ZEROISED anyway (R14). -/
theorem ZeroisedEmpty.lapseAssembly {s : State} (h : ZeroisedEmpty s) (n : SlotNo) : ZeroisedEmpty (lapseAssembly n s) := by
  refine ZeroisedEmpty.undisturbed (s := s.emptySlot n) (fun hc => ?_) (offer_only _ _ _ _).undisturbed
  obtain ⟨hslots, hverify, hhand⟩ := h hc
  refine ⟨fun m => ?_, hverify, hhand⟩
  rw [State.emptySlot, setSlot_slot]
  split
  · rfl
  · exact hslots m

theorem ZeroisedEmpty.lapseAssemblies {s : State} (h : ZeroisedEmpty s) : ZeroisedEmpty (lapseAssemblies s) := by
  unfold Machine.lapseAssemblies
  generalize List.finRange 64 = xs
  induction xs generalizing s with
  | nil => exact h
  | cons n rest ih =>
    rw [List.foldl_cons]
    split
    · exact ih (h.lapseAssembly n)
    · exact ih h

/-- A verify that completes is in progress no more; after a WAKE the unit is OPERATIONAL (R24, R26). -/
theorem ZeroisedEmpty.finishVerify {s : State} (h : ZeroisedEmpty s) (c : VerifyCause) (d : Nat) : ZeroisedEmpty (finishVerify c d s) := by
  refine ZeroisedEmpty.undisturbed ?_ (offer_only _ _ _ _).undisturbed
  cases c with
  | restore => exact fun hc => ⟨(h hc).1, rfl, (h hc).2.2⟩
  | wake => exact zeroisedEmpty_of_custody (by simp [State.readyCopies])

/-- In ZEROISED a verify finds no slot to visit (R24, R28). -/
theorem ZeroisedEmpty.visitFrom {s : State} (h : ZeroisedEmpty s) (c : VerifyCause) (d start : Nat) :
    ZeroisedEmpty (visitFrom c d start s) := by
  unfold Machine.visitFrom
  split
  · exact h.finishVerify c d
  · next n hn =>
    refine zeroisedEmpty_of_custody fun hc => ?_
    have visited : (s.slot n).visited = true := by
      have := List.find?_some hn
      simp only [Bool.and_eq_true] at this
      exact this.2
    simp [Slot.visited, (h hc).1 n] at visited

theorem ZeroisedEmpty.releaseVerify {s : State} (h : ZeroisedEmpty s) : ZeroisedEmpty (releaseVerify s) := by
  unfold Machine.releaseVerify
  split
  · refine ZeroisedEmpty.visitFrom ?_ .restore 0 0
    exact h.undisturbed ⟨rfl, fun _ => rfl, rfl, rfl⟩
  · exact h

/-- Working copies are no part of what the invariant reads (R30). -/
theorem readyCopies_undisturbed (s : State) : Undisturbed s s.readyCopies := ⟨rfl, fun _ => rfl, rfl, rfl⟩

theorem startIdle_undisturbed (s : State) : Undisturbed s s.startIdle := .of_eq (startIdle_store s) (startIdle_order s)

/-! ### Zeroisation and trips -/

/-- A zeroisation leaves an order in hand that fits ZEROISED: none waits screened or for a check value, and a load has lost its
results (R42, R140). -/
theorem afterZeroise_fits (h : OrderInHand) : h.afterZeroise.FitsZeroised := by
  unfold OrderInHand.FitsZeroised OrderInHand.afterZeroise
  cases h.handling <;> simp

theorem zeroiseOrder_hand (s : State) : (zeroiseOrder s).order.hand = s.order.hand.map OrderInHand.afterZeroise := by
  unfold zeroiseOrder
  simp only []
  split <;> rfl

theorem markBattery_undisturbed (s : State) : Undisturbed s (markBattery s) := by
  unfold markBattery
  split
  · exact .of_eq rfl rfl
  · exact .refl s

/-- A zeroisation empties every slot, whatever was before (R27, R28). -/
theorem zeroise_zeroisedEmpty (s : State) : ZeroisedEmpty (zeroise s) := by
  have emptied : ZeroisedEmpty ((zeroiseStore (zeroiseOrder s)).setCustody .zeroised) := by
    refine fun _ => ⟨fun n => ?_, rfl, fun x hx => ?_⟩
    · simp [State.slot, State.setCustody, zeroiseStore, Slot.blank]
    · have hand : (zeroiseOrder s).order.hand = some x := hx
      rw [zeroiseOrder_hand] at hand
      obtain ⟨y, -, rfl⟩ := Option.map_eq_some_iff.1 hand
      exact afterZeroise_fits y
  obtain ⟨table, reported, -⟩ := reportZeroised_runs s (markBattery ((zeroiseStore (zeroiseOrder s)).setCustody .zeroised))
  unfold zeroise
  simp only []
  rw [reported]
  exact (emptied.undisturbed (markBattery_undisturbed _)).undisturbed
    ((((lineNotices_only _ _).undisturbed.trans (abortRecord_undisturbed _))).after rfl rfl)

theorem ZeroisedEmpty.applyAction {s : State} (h : ZeroisedEmpty s) (i : SensorNo) : ZeroisedEmpty (applyAction i s) := by
  unfold Machine.applyAction
  simp only []
  split
  · split
    · exact h.undisturbed ⟨rfl, fun _ => rfl, rfl, rfl⟩
    · exact zeroise_zeroisedEmpty _
  · have suspended : Undisturbed s ((s.setSensor i (s.sensor i).tripped).setCause i true) := ⟨rfl, fun _ => rfl, rfl, rfl⟩
    exact h.undisturbed (suspended.trans (abortRecord_undisturbed _))

theorem countBatteryTrip_undisturbed (s : State) : Undisturbed s s.countBatteryTrip := by
  unfold State.countBatteryTrip
  split
  · exact .of_eq rfl rfl
  · exact .refl s

theorem emptyGate_undisturbed (s : State) : Undisturbed s s.emptyGate := ⟨rfl, fun _ => rfl, rfl, rfl⟩

theorem ZeroisedEmpty.trip {s : State} (h : ZeroisedEmpty s) (i : SensorNo) : ZeroisedEmpty (trip i s) := by
  refine ZeroisedEmpty.applyAction ?_ i
  have counted := (countBatteryTrip_undisturbed (s.enterTamper (.sensor i) (s.sensor i).action)).after (s := s) rfl rfl
  exact h.undisturbed ((counted.trans (emptyGate_undisturbed _)).trans (offer_only _ _ _ _).undisturbed)

theorem ZeroisedEmpty.considerSensor {s : State} (h : ZeroisedEmpty s) (i : SensorNo) : ZeroisedEmpty (considerSensor i s) := by
  unfold Machine.considerSensor
  split
  · unfold beginQualify
    simp only []
    split
    · exact h.trip i
    · exact h.undisturbed (.of_eq rfl rfl)
  · exact h

theorem ZeroisedEmpty.closeWindow {s : State} (h : ZeroisedEmpty s) : ZeroisedEmpty (closeWindow s) := by
  refine ZeroisedEmpty.considerSensor ?_ 0
  exact h.undisturbed (.of_eq rfl rfl)

/-- A released sensor's cause leaves the suspend set, and no more of the store changes (R158, R159). -/
theorem releaseSensor_undisturbed (i : SensorNo) (s : State) : Undisturbed s (releaseSensor i s) := ⟨rfl, fun _ => rfl, rfl, rfl⟩

theorem releaseLatched_undisturbed (s : State) : Undisturbed s (releaseLatched s) := by
  refine foldl_undisturbed (fun t i => ?_) _ s
  split
  · exact releaseSensor_undisturbed i t
  · exact .refl t

theorem ZeroisedEmpty.reconfigured {s : State} (h : ZeroisedEmpty s) (i : SensorNo) : ZeroisedEmpty (reconfigured i s) := by
  unfold Machine.reconfigured
  split
  · exact h.considerSensor i
  · refine ZeroisedEmpty.considerSensor ?_ i
    exact h.undisturbed (.of_eq rfl rfl)
  · split
    · exact h
    · exact h.undisturbed (releaseSensor_undisturbed i s)
  · exact h

/-! ### Orders -/

/-- What an order's own rule makes of a unit keeps the invariant; an order that then waits for its load is one of a custody state in
which loads pass. -/
def Taken.KeepsEmpty : Taken → Prop
  | .answered _ _ s => ZeroisedEmpty s
  | .held _ s => s.store.custody ≠ .zeroised

/-- The unit an order's own rule leaves. -/
def Taken.left : Taken → State
  | .answered _ _ s => s
  | .held _ s => s

/-- An order's own rule keeps the invariant wherever R141 lets the order pass. -/
def OrderRule.KeepsEmpty (rule : OrderRule) : Prop :=
  ∀ a s, ZeroisedEmpty s → (s.store.custody = .zeroised → rule.passed .zeroised = true) → (rule.take a s).KeepsEmpty

/-- Outside ZEROISED a rule that leaves the unit in another custody state than ZEROISED keeps the invariant. -/
theorem Taken.keepsEmpty_of_custody {x : Taken} (h : x.left.store.custody ≠ .zeroised) : x.KeepsEmpty := by
  cases x with
  | answered => exact zeroisedEmpty_of_custody h
  | held => exact h

/-- An order that does not pass in ZEROISED, and whose rule leads to no ZEROISED unit, keeps the invariant. -/
theorem OrderRule.KeepsEmpty.of_left {rule : OrderRule} (hp : rule.passed .zeroised = false)
    (ht : ∀ a s, s.store.custody ≠ .zeroised → (rule.take a s).left.store.custody ≠ .zeroised) : rule.KeepsEmpty := by
  intro a s _ hs
  have outside : s.store.custody ≠ .zeroised := fun hc => by simp [hp] at hs; exact hs hc
  exact Taken.keepsEmpty_of_custody (ht a s outside)

/-- An order that does not pass in ZEROISED, and whose rule leaves the custody state, keeps the invariant. -/
theorem OrderRule.KeepsEmpty.of_custody {rule : OrderRule} (hp : rule.passed .zeroised = false)
    (ht : ∀ a s, (rule.take a s).left.store.custody = s.store.custody) : rule.KeepsEmpty :=
  .of_left hp fun a s h => by rw [ht]; exact h

theorem checked_custody {α : Type} {e : Except OrderResult α} {s : State} {k : α → Taken}
    (h : ∀ a, (k a).left.store.custody = s.store.custody) : (checked e s k).left.store.custody = s.store.custody := by
  cases e with
  | error => rfl
  | ok a => exact h a

theorem checked_keepsEmpty {α : Type} {e : Except OrderResult α} {s : State} {k : α → Taken} (hs : ZeroisedEmpty s)
    (h : ∀ a, e = .ok a → (k a).KeepsEmpty) : (checked e s k).KeepsEmpty := by
  cases e with
  | error => exact hs
  | ok a => exact h a rfl

@[simp] theorem setSlot_custody (s : State) (n : SlotNo) (k : Slot) : (s.setSlot n k).store.custody = s.store.custody := rfl

@[simp] theorem emptySlot_custody (s : State) (n : SlotNo) : (s.emptySlot n).store.custody = s.store.custody := rfl

@[simp] theorem engineTake_custody (s : State) : (engineTake s).store.custody = s.store.custody := (engineTake_apart s).custody

@[simp] theorem closeTest_custody (n : Word) (s : State) : (closeTest n s).store.custody = s.store.custody :=
  (closeTest_apart n s).custody

@[simp] theorem advanceRun_custody (n : Word) (s : State) : (advanceRun n s).store.custody = s.store.custody :=
  (advanceRun_apart n s).custody

theorem withdrawRun_undisturbed (n : Word) (s : State) : Undisturbed s (withdrawRun n s) := by
  unfold withdrawRun
  simp only []
  refine (foldl_undisturbed (fun t x => ?_) _ _).after rfl rfl
  exact (offer_only _ _ _ _).undisturbed.after rfl rfl

@[simp] theorem withdrawRun_custody (n : Word) (s : State) : (withdrawRun n s).store.custody = s.store.custody :=
  (withdrawRun_undisturbed n s).custody

/-- WAKE begins a verify in DORMANT, or ends it at once with the unit OPERATIONAL (R26). -/
theorem visitFrom_custody {s : State} (h : s.store.custody ≠ .zeroised) (c : VerifyCause) (d start : Nat) :
    (visitFrom c d start s).store.custody ≠ .zeroised := by
  unfold visitFrom
  split
  · unfold finishVerify offerKey
    cases c <;> simp [State.readyCopies, h]
  · exact h

theorem loadComponent_custody (a : OrderArgs) (s : State) : (takeLoadComponent a s).left.store.custody = s.store.custody := by
  refine checked_custody fun p => ?_
  split
  · simp [Taken.left, offerSpent, offerKey]
  · split <;> rfl

theorem loadWrapped_custody (a : OrderArgs) (s : State) : (takeLoadWrapped a s).left.store.custody = s.store.custody := by
  refine checked_custody fun p => ?_
  split
  · simp [Taken.left, offerSpent, offerKey]
  · rfl

theorem closeRun_custody (a : OrderArgs) (s : State) : (takeCloseRun a s).left.store.custody = s.store.custody := by
  refine checked_custody fun r => ?_
  split
  · rfl
  · simp [Taken.left]

/-- ACK TAMPER keeps the invariant: in ZEROISED it leaves the unit in FACTORY (R29, R166). -/
theorem takeAckTamper_keepsEmpty (contact : Bool) (a : OrderArgs) {s : State} (hs : ZeroisedEmpty s) :
    (takeAckTamper contact a s).KeepsEmpty := by
  refine checked_keepsEmpty hs fun _ _ => ?_
  split
  · refine Taken.keepsEmpty_of_custody ?_
    simp only [Taken.left]
    rw [(releaseLatched_undisturbed _).custody, setCustody_custody]
    decide
  · exact hs.undisturbed (.of_eq rfl rfl)

/-- Every order's own rule keeps the invariant where the order passes (R141). -/
theorem orderRule_keepsEmpty {i : Instr} {rule : OrderRule} (h : orderRule i = some rule) : rule.KeepsEmpty := by
  cases i <;> cases h
  case status =>
    refine fun a s hs _ => checked_keepsEmpty hs fun c _ => ?_
    cases c
    exacts [hs, hs.undisturbed (.of_eq rfl rfl)]
  case grant => exact .of_custody rfl fun a s => checked_custody fun _ => rfl
  case loadClear => exact .of_custody rfl fun a s => checked_custody fun _ => rfl
  case setUnit => exact .of_custody rfl fun a s => checked_custody fun _ => rfl
  case commission =>
    refine .of_left rfl fun a s hs => ?_
    show (checked _ s _).left.store.custody ≠ _
    generalize (do need _ _; _ : Except OrderResult Unit) = e
    cases e with
    | error => exact hs
    | ok => simp [checked, Taken.left]
  case beginKey => exact .of_custody rfl fun a s => checked_custody fun _ => rfl
  case loadComponent => exact .of_custody rfl loadComponent_custody
  case loadWrappedKey => exact .of_custody rfl loadWrapped_custody
  case lockSlot => exact .of_custody rfl fun a s => checked_custody fun _ => rfl
  case unlockSlot => exact .of_custody rfl fun a s => checked_custody fun _ => rfl
  case retireSlot => exact .of_custody rfl fun a s => checked_custody fun _ => by simp [Taken.left]
  case eraseSlot => exact .of_custody rfl fun a s => checked_custody fun _ => rfl
  case setCeiling => exact .of_custody rfl fun a s => checked_custody fun _ => by simp [Taken.left]
  case readSlot => exact .of_custody rfl fun a s => checked_custody fun _ => rfl
  case wake =>
    refine .of_left rfl fun a s hs => ?_
    show (checked _ s _).left.store.custody ≠ _
    generalize (do State.screen s false; _ : Except OrderResult Unit) = e
    cases e with
    | error => exact hs
    | ok => exact visitFrom_custody hs .wake 0 0
  case zeroise => exact fun a s _ _ => zeroise_zeroisedEmpty _
  case ackTamper => exact fun a s hs _ => takeAckTamper_keepsEmpty _ a hs
  case openRun => exact .of_custody rfl fun a s => checked_custody fun _ => rfl
  case releaseRun => exact .of_custody rfl fun a s => checked_custody fun _ => by simp [Taken.left]
  case holdRun => exact .of_custody rfl fun a s => checked_custody fun _ => rfl
  case addAllowance => exact .of_custody rfl fun a s => checked_custody fun _ => by simp [Taken.left]
  case closeRun => exact .of_custody rfl closeRun_custody
  case writeOffCard => exact .of_custody rfl fun a s => checked_custody fun _ => by simp [Taken.left]
  case deleteRun => exact .of_custody rfl fun a s => checked_custody fun _ => rfl
  case readRun => exact .of_custody rfl fun a s => checked_custody fun _ => rfl
  case defineRecipe => exact .of_custody rfl fun a s => checked_custody fun _ => rfl
  case readRecipe => exact .of_custody rfl fun a s => checked_custody fun _ => rfl
  case setLine => exact .of_custody rfl fun a s => checked_custody fun _ => by simp [Taken.left, applySetting]
  case setGroupMembers => exact .of_custody rfl fun a s => checked_custody fun _ => by simp [Taken.left]
  case setGroupKey => exact .of_custody rfl fun a s => checked_custody fun _ => by simp [Taken.left, State.setGroupKey]
  case setGroupCredit => exact .of_custody rfl fun a s => checked_custody fun _ => by simp [Taken.left, State.setGroupCredit]
  case barLine => exact .of_custody rfl fun a s => checked_custody fun _ => by simp [Taken.left]
  case unbarLine => exact .of_custody rfl fun a s => checked_custody fun _ => by simp [Taken.left]
  case clearLine => exact .of_custody rfl fun a s => checked_custody fun _ => by simp [Taken.left]
  case productionOn => exact .of_custody rfl fun a s => by simp [productionOnRule, knownOrder, takeProductionOn, Taken.left]
  case productionOff => exact .of_custody rfl fun a s => rfl
  case readLine => exact .of_custody rfl fun a s => checked_custody fun _ => rfl
  case readLinkErrors => exact .of_custody rfl fun a s => rfl
  case setSensor =>
    refine fun a s hs _ => checked_keepsEmpty hs fun p _ => ?_
    have configured : ZeroisedEmpty (s.setSensor p.1 p.2) := hs.undisturbed (.of_eq rfl rfl)
    exact (configured.reconfigured p.1).engineTake
  case resume =>
    refine .of_custody rfl fun a s => checked_custody fun _ => ?_
    simp only [Taken.left, engineTake_custody, (releaseLatched_undisturbed s).custody]
  case openCabinet =>
    refine .of_custody rfl fun a s => checked_custody fun _ => ?_
    unfold openWindow; simp only [Taken.left]; split <;> rfl
  case closeCabinet =>
    intro a s hs _
    show ZeroisedEmpty (if _ then _ else _)
    split
    exacts [hs.closeWindow, hs]
  case readTamperRecord => exact fun a s hs _ => hs
  case setTime => exact .of_custody rfl fun a s => rfl
  case setNoticeMask => exact .of_custody rfl fun a s => checked_custody fun _ => rfl
  case setAlarmMask => exact .of_custody rfl fun a s => rfl
  case setIdleLimit =>
    refine .of_custody rfl fun a s => ?_
    show (State.setIdleLimit s _).store.custody = _
    unfold State.setIdleLimit; simp only []; split <;> simp
  case unknownOrderCode => exact fun a s hs _ => hs

/-- Of the orders with the codes of R141 each passes in ZEROISED. -/
theorem orderRule_passes {i : Instr} {rule : OrderRule} (h : orderRule i = some rule) :
    ∀ c ∈ zeroisedCodes, rule.matching c = true → rule.passed .zeroised = true := by
  cases i with
  | loadClear contact | setUnit contact | commission contact | ackTamper contact => cases h; cases contact <;> decide
  | _ => cases h <;> decide

/-! ### The decision of an order -/

theorem ZeroisedEmpty.buildAnswer {s : State} (hs : ZeroisedEmpty s) (h : OrderInHand) (r : OrderResult) (v : Bytes) (z : Bool) :
    ZeroisedEmpty (buildAnswer h r v z s) := by
  unfold Machine.buildAnswer
  simp only []
  split <;>
  · refine hs.with_hand rfl fun _ x hx => ?_
    simp only [Option.some.injEq] at hx
    subst hx
    simp [OrderInHand.FitsZeroised]

theorem afterTake_zeroisedEmpty {x : Taken} (hx : x.KeepsEmpty) (h : OrderInHand) : ZeroisedEmpty (afterTake h x) := by
  cases x with
  | answered r v s => exact ZeroisedEmpty.buildAnswer hx h r v false
  | held l s => exact zeroisedEmpty_of_custody hx

theorem dealWithGate_keepsEmpty {x : Taken} (hx : x.KeepsEmpty) (c : OrderClass) : (dealWithGate c x).KeepsEmpty := by
  cases x with
  | answered r v s =>
    show ZeroisedEmpty (if _ then _ else _)
    split
    exacts [hx, ZeroisedEmpty.undisturbed hx (emptyGate_undisturbed s)]
  | held => exact hx

theorem broadcastIdle_keepsEmpty {x : Taken} (hx : x.KeepsEmpty) : (broadcastIdle x).KeepsEmpty := by
  cases x with
  | answered r v s =>
    show ZeroisedEmpty (if _ then _ else _)
    split
    exacts [ZeroisedEmpty.undisturbed hx (startIdle_undisturbed s), hx]
  | held => exact hx

/-- An order that passes steps 1 to 3 of R140 passes in the unit's custody state, and is of a known code. -/
theorem screen_ok {rule : OrderRule} {h : OrderInHand} {s : State} (e : rule.screen h s = .ok ()) :
    rule.known = true ∧ rule.passed s.store.custody = true := by
  unfold OrderRule.screen need at e
  cases hk : rule.known <;> cases hf : rule.fits h.params <;> cases hp : rule.passed s.store.custody <;>
    simp [hk, hf, hp, bind, Except.bind] at e ⊢

theorem endDecisionStep_undisturbed (s : State) (h : OrderInHand) : Undisturbed s (s.endDecisionStep h) := by
  unfold State.endDecisionStep
  split
  exacts [.of_eq rfl rfl, .of_eq rfl rfl, .refl s]

/-- In ZEROISED an order that has passed the checks of R141, at its hand-over or now, is one that passes there. -/
theorem verdict_passes {rule : OrderRule} {h : OrderInHand} {s : State} (hf : h.FitsZeroised)
    (hm : ∀ c ∈ zeroisedCodes, rule.matching c = true → rule.passed .zeroised = true) (hc : rule.matching h.code = true)
    (hv : rule.verdict h s = .ok ()) (hz : s.store.custody = .zeroised) : rule.passed .zeroised = true := by
  obtain ⟨-, nocheck, screened⟩ := hf
  unfold OrderRule.verdict at hv
  split at hv
  · next e => exact hm _ (screened e) hc
  · next key e => exact absurd e (nocheck key)
  · rw [← hz]; exact (screen_ok hv).2

/-- The event of an order's row keeps the invariant, whichever way the order stands (R138 to R141, R150). -/
theorem ZeroisedEmpty.decideOrder {rule : OrderRule} {s : State} (hs : ZeroisedEmpty s) (hr : rule.KeepsEmpty)
    (hm : ∀ c ∈ zeroisedCodes, rule.matching c = true → rule.passed .zeroised = true) : ZeroisedEmpty (decideOrder rule s) := by
  unfold Machine.decideOrder
  split
  · exact hs
  · next h hh =>
    simp only []
    split
    · exact hs
    · next hcode =>
      have matched : rule.matching h.code = true := by
        simp only [Bool.or_eq_true, Bool.not_eq_true', not_or, Bool.not_eq_false] at hcode
        exact hcode.2
      have ended := endDecisionStep_undisturbed s h
      have ht := hs.undisturbed ended
      generalize s.endDecisionStep h = t at ended ht
      cases s.standing h with
      | none => exact hs
      | some st =>
        cases st with
        | badTag => dsimp only; exact ((ht.undisturbed (t := t.flagTag) (.of_eq rfl rfl)).buildAnswer h _ _ _).settleCore
        | stale => dsimp only; exact ((ht.undisturbed (t := t.flagNumber) (.of_eq rfl rfl)).buildAnswer h _ _ _).settleCore
        | broadcast =>
          dsimp only
          refine (afterTake_zeroisedEmpty (checked_keepsEmpty ht fun _ e => broadcastIdle_keepsEmpty (hr _ _ ht fun hz => ?_)) h).settleCore
          rw [← hz]; exact (screen_ok e).2
        | untagged =>
          dsimp only
          refine (afterTake_zeroisedEmpty (checked_keepsEmpty ht fun _ e => hr _ _ ht fun hz => ?_) h).settleCore
          exact verdict_passes (ht.fits hz (ended.hand.trans hh)) hm matched e hz
        | accepted =>
          dsimp only
          have recorded : ZeroisedEmpty ({ t with store := { t.store with lastOrder := h.number } }).startIdle := by
            refine ZeroisedEmpty.undisturbed ?_ (startIdle_undisturbed _)
            exact ht.undisturbed ⟨rfl, fun _ => rfl, rfl, rfl⟩
          refine (afterTake_zeroisedEmpty (dealWithGate_keepsEmpty (checked_keepsEmpty recorded fun _ e => ?_) _) h).settleCore
          refine hr _ _ recorded fun hz => ?_
          rw [← hz]
          cases hscr : rule.screen h ({ t with store := { t.store with lastOrder := h.number } }).startIdle with
          | error r => rw [hscr] at e; cases e
          | ok => exact (screen_ok hscr).2

/-! ### Frames that arrive -/

/-- The rules of the catalogue that pass in ZEROISED (R141). -/
theorem rules_passing_zeroised :
    orderRules.filter (fun r => r.passed .zeroised) = [statusRule, ackTamperRule true, readTamperRecordRule] := rfl

/-- A known code whose order passes in ZEROISED is one of R141's. -/
theorem ruleOf_zeroised {c : Byte} (hk : (ruleOf c).known = true) (hp : (ruleOf c).passed .zeroised = true) : c ∈ zeroisedCodes := by
  unfold ruleOf at hk hp
  cases hf : orderRules.find? fun r => r.matching c with
  | none => rw [hf] at hk; cases hk
  | some r =>
    rw [hf] at hp
    have listed : r ∈ orderRules.filter (fun r => r.passed .zeroised) :=
      List.mem_filter.2 ⟨List.mem_of_find?_eq_some hf, hp⟩
    have matched : r.matching c = true := by have := List.find?_some hf; exact this
    rw [rules_passing_zeroised] at listed
    simp only [List.mem_cons, List.not_mem_nil, or_false] at listed
    rcases listed with rfl | rfl | rfl <;>
    · have code := eq_of_beq matched
      subst code
      decide

/-- An order handed over in ZEROISED is answered at once, or waits screened with a code that passes there (R141). -/
theorem ZeroisedEmpty.handUntagged {s : State} (hs : ZeroisedEmpty s) (h : OrderInHand) : ZeroisedEmpty (handUntagged h s) := by
  unfold Machine.handUntagged
  split
  · exact hs.buildAnswer h _ _ _
  · next e =>
    refine hs.with_hand rfl fun hz x hx => ?_
    obtain ⟨known, passed⟩ := screen_ok e
    have code : h.code ∈ zeroisedCodes := ruleOf_zeroised known (by rw [← hz]; exact passed)
    have notLoadClear : h.code ≠ 0x03 := by
      rintro e
      rw [e] at code
      exact absurd code (by decide)
    rw [if_neg notLoadClear] at hx
    obtain rfl : _ = x := Option.some.inj hx
    exact ⟨fun l e => (by cases e), fun key e => (by cases e), fun _ => code⟩

/-- An order comes into hand: in ZEROISED screened by R141, or as a broadcast (R150). -/
theorem ZeroisedEmpty.handOver {s : State} (hs : ZeroisedEmpty s) (frame : Bytes) (b : Bool) : ZeroisedEmpty (handOver frame b s) := by
  unfold Machine.handOver
  simp only []
  split
  · refine hs.with_hand rfl fun _ x hx => ?_
    obtain rfl : _ = x := Option.some.inj hx
    simp [OrderInHand.FitsZeroised]
  · split
    · exact hs.handUntagged _
    · exact hs.handUntagged _
    · next hc => exact zeroisedEmpty_of_custody (by rw [hold_store, hc]; decide)
    · next hc => exact zeroisedEmpty_of_custody (by rw [hold_store, hc]; decide)

theorem ZeroisedEmpty.classifyOrder {s : State} (hs : ZeroisedEmpty s) (frame : Bytes) : ZeroisedEmpty (classifyOrder frame s) := by
  have passed : ZeroisedEmpty (s.passOnward frame) := hs.undisturbed (.of_eq rfl rfl)
  unfold Machine.classifyOrder
  split
  · exact (hs.handOver frame false).settleCore
  · split
    · refine (ZeroisedEmpty.handOver ?_ frame true).settleCore
      split
      exacts [hs, passed]
    · exact passed

theorem flagUp_undisturbed (s : State) (f : UpFault) : Undisturbed s (s.flagUp f) := by
  cases f <;> exact .of_eq rfl rfl

theorem stageRecord_undisturbed (s : State) (r : Run) (seq : Word) (fields : List Field) :
    Undisturbed s (s.stageRecord r seq fields) := .of_eq rfl rfl

theorem offerRefusal_undisturbed (n seq : Word) (x : RefusalReason) (s : State) : Undisturbed s (offerRefusal n seq x s) :=
  (offer_only _ _ _ s).undisturbed

/-- Admission decides a record without the Key Store (R57). -/
theorem admitRecord_undisturbed (frame : Bytes) (s : State) : Undisturbed s (admitRecord frame s) := by
  unfold admitRecord
  simp only []
  split
  · exact offerRefusal_undisturbed _ _ _ s
  · split
    · split
      · exact offerRefusal_undisturbed _ _ _ s
      · exact .of_eq rfl rfl
    · split
      · exact offerRefusal_undisturbed _ _ _ s
      · split
        · exact stageRecord_undisturbed s _ _ _
        · exact (offerRefusal_undisturbed _ _ _ s).trans (.of_eq rfl rfl)
        · exact offerRefusal_undisturbed _ _ _ s

theorem takeRecordFrame_undisturbed (frame : Bytes) (s : State) : Undisturbed s (takeRecordFrame frame s) := by
  unfold takeRecordFrame
  split
  · exact admitRecord_undisturbed frame s
  · exact (startIdle_undisturbed s).trans (admitRecord_undisturbed frame _)

/-! ### Outcomes and lapses -/

theorem changeRun_undisturbed (n : Word) (f : Run → Run) {tell : Run → State → State} (ht : ∀ r t, Undisturbed t (tell r t)) (s : State) :
    Undisturbed s (s.changeRun n f tell) := by
  unfold State.changeRun
  simp only []
  split
  · exact .of_eq rfl rfl
  · exact (ht _ _).after rfl rfl

theorem advanceRun_undisturbed (n : Word) (s : State) : Undisturbed s (advanceRun n s) := by
  unfold advanceRun
  simp only []
  split
  · exact .of_eq rfl rfl
  · split
    · exact (changeRun_undisturbed _ _ (fun _ t => (offer_only _ _ _ t).undisturbed) _).after rfl rfl
    · exact .of_eq rfl rfl

theorem progressTest_undisturbed (n : Word) (s : State) : Undisturbed s (progressTest n s) := by
  unfold progressTest
  split
  · exact .refl s
  · split
    · exact changeRun_undisturbed _ _ (fun _ t => (offer_only _ _ _ t).undisturbed) s
    · exact .refl s

/-- The books of a run that a spoil closes: OVERSPOIL, and at the fourth attempt the advance of the low mark (R52, R56, R64, R67). -/
theorem closeSpoil_undisturbed (n : Word) (fourth : Prop) [Decidable fourth] (s : State) :
    Undisturbed s (closeTest n (if fourth then advanceRun n (s.updateRun n Run.overspoilTest) else s.updateRun n Run.overspoilTest)) := by
  split
  · exact ((advanceRun_undisturbed n _).trans (closeTest_undisturbed n _)).after rfl rfl
  · exact (closeTest_undisturbed n _).after rfl rfl

theorem ite_undisturbed {c : Prop} [Decidable c] {s t : State} (h : Undisturbed s t) : Undisturbed s (if c then t else s) := by
  split
  exacts [h, .refl s]

theorem offerCard_undisturbed (v : CardVariant) (n seq : Word) (l : LineNo) (last : Byte) (s : State) :
    Undisturbed s (offerCard v n seq l last s) := (offer_only _ _ _ s).undisturbed

theorem settle_undisturbed (l : LineNo) (n : Word) (o : Nat) (seq : Word) (p : Position) (res : CardResult) (s : State) :
    Undisturbed s (settle l n o seq p res s) := by
  unfold settle
  cases res with
  | done =>
    exact ((progressTest_undisturbed n _).trans ((advanceRun_undisturbed n _).trans (closeTest_undisturbed n _))).after rfl rfl
  | spoiled => exact ((ite_undisturbed (offerCard_undisturbed _ _ _ _ _ _)).trans (closeSpoil_undisturbed n _ _)).after rfl rfl
  | rejected => exact ((ite_undisturbed (offerCard_undisturbed _ _ _ _ _ _)).trans (closeSpoil_undisturbed n _ _)).after rfl rfl

theorem lateOutcome_undisturbed (l : LineNo) (n seq : Word) (res : CardResult) (s : State) :
    Undisturbed s (lateOutcome l n seq res s) := (offer_only _ _ _ _).undisturbed.after rfl rfl

theorem strayOutcome_undisturbed (l : LineNo) (n seq : Word) (res : CardResult) (s : State) :
    Undisturbed s (strayOutcome l n seq res s) := (offer_only _ _ _ _).undisturbed.after rfl rfl

/-- Outcomes touch runs, lines and notices alone (R64 to R66). -/
theorem takeOutcome_undisturbed (l : LineNo) (n seq : Word) (res : CardResult) (s : State) :
    Undisturbed s (takeOutcome l n seq res s) := by
  unfold takeOutcome
  split
  · exact strayOutcome_undisturbed l n seq res s
  · split
    · exact strayOutcome_undisturbed l n seq res s
    · split
      · exact settle_undisturbed _ _ _ _ _ _ s
      · split
        · exact lateOutcome_undisturbed l n seq res s
        · exact strayOutcome_undisturbed l n seq res s

theorem lapsePosition_undisturbed (l : LineNo) (n : Word) (o : Nat) (seq : Word) (p : Position) (s : State) :
    Undisturbed s (lapsePosition l n o seq p s) := by
  unfold lapsePosition
  simp only []
  generalize lapsed : State.updateRun (State.setLine s l _) n _ = u
  have books : Undisturbed s u := by rw [← lapsed]; exact .of_eq rfl rfl
  refine books.trans ((offerCard_undisturbed .lapsed n seq l (byteOf p.attempt) u).trans ?_)
  generalize offerCard .lapsed n seq l (byteOf p.attempt) u = v
  refine (ite_undisturbed (c := p.attempt = 4) (offerCard_undisturbed .voided n seq l (byteOf p.attempt) v)).trans ?_
  exact (lineNotices_only s _).undisturbed.trans (closeSpoil_undisturbed n _ _)

/-! ### Loads, tags and the store's long operations -/

/-- A load that a zeroisation came between has no effect (R42). -/
theorem endLoad_zeroised {l : Load} (h : l.zeroised = true) (v : Block) (s : State) : endLoad l v s = (.noSuch, s) := by
  simp [endLoad, h]

theorem endLoad_custody (l : Load) (v : Block) (s : State) : (endLoad l v s).2.store.custody = s.store.custody := by
  unfold endLoad activate offerActive offerKey
  split
  · rfl
  · split
    · rfl
    · split
      · simp
      · rfl
    · split
      · simp
      · rfl
    · rfl

theorem ZeroisedEmpty.lateLapse {s : State} (hs : ZeroisedEmpty s) (l : Load) : ZeroisedEmpty (lateLapse l s) := by
  unfold Machine.lateLapse
  split
  · split
    exacts [hs.lapseAssembly _, hs]
  · exact hs

/-- The end of a load keeps the invariant: in ZEROISED its results are discarded (R42). -/
theorem endLoad_zeroisedEmpty {s : State} (hs : ZeroisedEmpty s) {h : OrderInHand} {l : Load} (hh : s.order.hand = some h)
    (hl : h.handling = .loading l) (v : Block) : ZeroisedEmpty (endLoad l v s.endStep).2 := by
  by_cases hc : s.store.custody = .zeroised
  · rw [endLoad_zeroised ((hs.fits hc hh).1 l hl)]
    exact hs.undisturbed (.of_eq rfl rfl)
  · exact zeroisedEmpty_of_custody (by rw [endLoad_custody]; exact hc)

/-- The next step of a tag or a load leaves an order in hand that fits ZEROISED as it was (R32, R42). -/
theorem nextHandling_fits {s : State} {v : Block} {h : OrderInHand} {x : Handling} (hf : h.FitsZeroised)
    (hx : nextHandling s v h.handling = some x) : ({ h with handling := x } : OrderInHand).FitsZeroised := by
  obtain ⟨loads, -, -⟩ := hf
  unfold OrderInHand.FitsZeroised
  cases e : h.handling with
  | loading l =>
    simp only [e, nextHandling] at hx
    split at hx
    · cases hx
    · obtain rfl := Option.some.inj hx
      simp [loads l e]
  | comparing n j | answering m j =>
    simp only [e, nextHandling] at hx
    split at hx
    · cases hx
    · obtain rfl := Option.some.inj hx
      simp
  | _ => simp [e, nextHandling] at hx

theorem ZeroisedEmpty.stepKeyStoreSide {s t : State} (hs : ZeroisedEmpty s) {u : KsUser} {v : Block}
    (ht : stepKeyStoreSide u v s = some t) : ZeroisedEmpty t := by
  have of_hand : (match s.order.hand with
      | none => some s
      | some h => (nextHandling s v h.handling).map fun x => s.setHandling fun _ => x) = some t → ZeroisedEmpty t := by
    intro ht
    cases hh : s.order.hand with
    | none => rw [hh] at ht; obtain rfl := Option.some.inj ht; exact hs
    | some h =>
      rw [hh] at ht
      obtain ⟨x, hx, rfl⟩ := Option.map_eq_some_iff.1 ht
      refine hs.with_hand rfl fun hz y hy => ?_
      simp only [State.setHandling, hh, Option.map_some] at hy
      obtain rfl := Option.some.inj hy
      exact nextHandling_fits (hs.fits hz hh) hx
  unfold Machine.stepKeyStoreSide at ht
  cases u with
  | verify =>
    dsimp only at ht
    split at ht
    · cases ht
    · obtain rfl := Option.some.inj ht; exact hs
  | report =>
    dsimp only at ht
    split at ht
    · obtain rfl := Option.some.inj ht; exact hs
    · split at ht
      · cases ht
      · obtain rfl := Option.some.inj ht; exact hs.undisturbed (.of_eq rfl rfl)
  | order => exact of_hand ht
  | load => exact of_hand ht

/-- A verify step finds no ZEROISED unit, for no verify is in progress in one (R28). -/
theorem verifySlot_zeroisedEmpty {s : State} (hs : ZeroisedEmpty s) {v : Verify} (hv : s.store.verify = some v) (x : Block) :
    ZeroisedEmpty (verifySlot v x s.endStep) := by
  have outside : s.store.custody ≠ .zeroised := fun hc => by
    have := (hs hc).2.1
    rw [hv] at this; cases this
  refine zeroisedEmpty_of_custody ?_
  unfold verifySlot
  split
  · exact visitFrom_custody (s := s.endStep) outside _ _ _
  · refine visitFrom_custody ?_ _ _ _
    unfold damageSlot offerKey
    simpa using outside

/-! ### Every command -/

/-- A command's outcome keeps the invariant. -/
def EndsEmpty (o : Host.Outcome State Fault Refusal) : Prop := ∀ t, o = .next t → ZeroisedEmpty t

theorem endsEmpty_next {t : State} (h : ZeroisedEmpty t) : EndsEmpty (.next t) := by
  rintro _ ⟨⟩; exact h

theorem endsEmpty_ite {c : Prop} [Decidable c] {x y : Host.Outcome State Fault Refusal} (hx : EndsEmpty x) (hy : EndsEmpty y) :
    EndsEmpty (if c then x else y) := by
  split
  exacts [hx, hy]

theorem ZeroisedEmpty.ends_eq {s t : State} (h : ZeroisedEmpty s) (hs : t.store = s.store) (ho : t.order = s.order) :
    EndsEmpty (.next t) := endsEmpty_next (h.undisturbed (.of_eq hs ho))

theorem reportRestore_undisturbed (s : State) : Undisturbed s (reportRestore s) := by
  have offered := (offer_only .power PowerCause.mainRestore.code
    (powerValues .mainRestore { s with tamper := { s.tamper with batteryTrips := .zero } } s.power.lossTime
      (some s.tamper.batteryTrips) (some s.power.batteryZeroised))
    { s with tamper := { s.tamper with batteryTrips := .zero } }).undisturbed.after (s := s) rfl rfl
  exact offered.trans (.of_eq rfl rfl)

section
variable {s : State} (hs : ZeroisedEmpty s)
include hs

/-! The frames that arrive. -/

theorem execOrderFrame_endsEmpty (frame : Bytes) : EndsEmpty (execOrderFrame frame s) := by
  unfold execOrderFrame
  refine endsEmpty_ite (endsEmpty_next hs) ?_
  split
  · exact endsEmpty_next (hs.undisturbed (flagUp_undisturbed s _))
  · exact endsEmpty_ite (endsEmpty_next (hs.classifyOrder frame)) (endsEmpty_next hs)

theorem execRecord_endsEmpty (frame : Bytes) : EndsEmpty (execRecord frame s) := by
  unfold execRecord
  refine endsEmpty_ite (endsEmpty_next hs) ?_
  split
  · exact endsEmpty_next (hs.undisturbed (flagUp_undisturbed s _))
  · exact endsEmpty_ite (endsEmpty_next (hs.undisturbed (takeRecordFrame_undisturbed frame s)).settleUnit) (endsEmpty_next hs)

theorem execUpstreamFrameError_endsEmpty (frame : Bytes) : EndsEmpty (execUpstreamFrameError frame s) := by
  unfold execUpstreamFrameError
  refine endsEmpty_ite (endsEmpty_next hs) ?_
  split
  · exact endsEmpty_next (hs.undisturbed (flagUp_undisturbed s _))
  · exact endsEmpty_next hs

theorem execRelayFrame_endsEmpty (frame : Bytes) : EndsEmpty (execRelayFrame frame s) := by
  unfold execRelayFrame
  exact endsEmpty_ite (endsEmpty_next hs) (endsEmpty_ite (hs.ends_eq rfl rfl) (endsEmpty_ite (hs.ends_eq rfl rfl)
    (endsEmpty_ite (hs.ends_eq rfl rfl) (hs.ends_eq rfl rfl))))

theorem execOutcome_endsEmpty (l : LineNo) (frame : Bytes) : EndsEmpty (execOutcome l frame s) := by
  unfold execOutcome
  refine endsEmpty_ite (endsEmpty_next hs) ?_
  split
  · exact hs.ends_eq rfl rfl
  · exact endsEmpty_next (hs.undisturbed (takeOutcome_undisturbed _ _ _ _ s)).settleUnit

/-! The ends of cipher steps. -/

/-- The engine's steps: outside OPERATIONAL the walk changes nothing of the store (R92). -/
theorem execEngineCipherStep_endsEmpty : EndsEmpty (execEngineCipherStep s) := by
  have ended : ZeroisedEmpty s.endStep := hs.undisturbed (.of_eq rfl rfl)
  unfold execEngineCipherStep
  split
  · split
    · exact endsEmpty_next ended.settleCore
    · next c _ _ w _ =>
      refine endsEmpty_next (ZeroisedEmpty.settleUnit ?_)
      have walked : ZeroisedEmpty (resume c.result w s.endStep).2 := by
        by_cases hc : s.store.custody = .operational
        · exact zeroisedEmpty_of_custody (by rw [(resume_apart _ _ _).custody, endStep_store, hc]; decide)
        · rw [resume_not_operational (s := s.endStep) hc]; exact ended
      exact walked.undisturbed (endWalk_undisturbed _)
  · exact endsEmpty_next ended.settleCore
  · exact endsEmpty_next hs

theorem execLoadUnwrapEnd_endsEmpty : EndsEmpty (execLoadUnwrapEnd s) := by
  unfold execLoadUnwrapEnd
  split
  · exact endsEmpty_next hs
  · next h hh =>
    split
    · next l hl =>
      refine endsEmpty_ite ?_ (endsEmpty_next hs)
      have loaded := endLoad_zeroisedEmpty hs hh hl s.coreResult
      exact endsEmpty_next ((loaded.lateLapse l).engineTake.buildAnswer h _ [] false).settleCore
    · exact endsEmpty_next hs

theorem execKeyStoreSideCipherStep_endsEmpty : EndsEmpty (execKeyStoreSideCipherStep s) := by
  have ended : ZeroisedEmpty s.endStep := hs.undisturbed (.of_eq rfl rfl)
  unfold execKeyStoreSideCipherStep
  split
  · exact endsEmpty_next ended.settleCore
  · split
    · exact endsEmpty_next hs
    · next t ht => exact endsEmpty_next (ended.stepKeyStoreSide ht).settleCore
  · exact endsEmpty_next hs

theorem execAnswerBuilt_endsEmpty : EndsEmpty (execAnswerBuilt s) := by
  unfold execAnswerBuilt
  split
  · exact endsEmpty_next hs
  · split
    · refine endsEmpty_ite (endsEmpty_next (ZeroisedEmpty.settleCore (hs.with_hand rfl fun _ x hx => ?_))) (endsEmpty_next hs)
      obtain rfl := Option.some.inj hx
      simp [OrderInHand.FitsZeroised]
    · exact endsEmpty_next hs

theorem execNoticeBuilt_endsEmpty : EndsEmpty (execNoticeBuilt s) := by
  unfold execNoticeBuilt
  split
  · exact endsEmpty_next hs
  · exact endsEmpty_ite (endsEmpty_next (ZeroisedEmpty.settleCore (hs.undisturbed (.of_eq rfl rfl)))) (endsEmpty_next hs)

/-! Sending and the links. -/

theorem execLineSendBegin_endsEmpty (l : LineNo) : EndsEmpty (execLineSendBegin l s) :=
  endsEmpty_ite (hs.ends_eq rfl rfl) (endsEmpty_next hs)

theorem execLineSendComplete_endsEmpty (l : LineNo) : EndsEmpty (execLineSendComplete l s) :=
  endsEmpty_ite (hs.ends_eq rfl rfl) (endsEmpty_next hs)

theorem execLineLinkLoss_endsEmpty (l : LineNo) : EndsEmpty (execLineLinkLoss l s) := by
  unfold execLineLinkLoss
  refine endsEmpty_ite (endsEmpty_next hs) (endsEmpty_ite (hs.ends_eq rfl rfl) (endsEmpty_next (ZeroisedEmpty.settleCore ?_)))
  exact hs.undisturbed ((lineNotices_only s _).undisturbed.after rfl rfl)

theorem execLineLinkRestore_endsEmpty (l : LineNo) : EndsEmpty (execLineLinkRestore l s) := by
  unfold execLineLinkRestore
  refine endsEmpty_ite (endsEmpty_next hs) (endsEmpty_ite (hs.ends_eq rfl rfl) (endsEmpty_next (ZeroisedEmpty.settleUnit ?_)))
  exact hs.undisturbed ((lineNotices_only s _).undisturbed.after rfl rfl)

theorem execOnwardSendBegin_endsEmpty : EndsEmpty (execOnwardSendBegin s) := by
  unfold execOnwardSendBegin
  split
  · exact endsEmpty_next hs
  · exact endsEmpty_ite (hs.ends_eq rfl rfl) (endsEmpty_next hs)

theorem execOnwardSendComplete_endsEmpty : EndsEmpty (execOnwardSendComplete s) :=
  endsEmpty_ite (hs.ends_eq rfl rfl) (endsEmpty_next hs)

/-- The arbiter frees the Order Unit or leaves it as it is (R131, R137). -/
theorem execUpstreamTransmitChoice_endsEmpty : EndsEmpty (execUpstreamTransmitChoice s) := by
  unfold execUpstreamTransmitChoice
  refine endsEmpty_ite ?_ (endsEmpty_next hs)
  split
  · exact endsEmpty_next hs
  · next src f _ =>
    cases src with
    | answer => exact endsEmpty_next (hs.with_hand rfl fun _ x hx => (by cases hx))
    | notice => exact hs.ends_eq rfl rfl
    | relay => exact hs.ends_eq rfl rfl

theorem execUpstreamSendComplete_endsEmpty : EndsEmpty (execUpstreamSendComplete s) :=
  endsEmpty_ite (hs.ends_eq rfl rfl) (endsEmpty_next hs)

theorem execPortLinkLoss_endsEmpty (p : Port) : EndsEmpty (execPortLinkLoss p s) := by
  cases p <;> exact hs.ends_eq rfl rfl

theorem execPortLinkRestore_endsEmpty (p : Port) : EndsEmpty (execPortLinkRestore p s) := by
  cases p <;> exact hs.ends_eq rfl rfl

/-! The timers. -/

theorem execLapse_endsEmpty (run : Word) (offset : Nat) : EndsEmpty (execLapse run offset s) := by
  unfold execLapse
  refine endsEmpty_ite (endsEmpty_next hs) ?_
  split
  · exact endsEmpty_next hs
  · exact endsEmpty_next (hs.undisturbed (lapsePosition_undisturbed _ _ _ _ _ s)).settleUnit

theorem execAssemblyLapse_endsEmpty (n : SlotNo) : EndsEmpty (execAssemblyLapse n s) :=
  endsEmpty_ite (endsEmpty_next (hs.lapseAssembly n).settleCore) (endsEmpty_next hs)

theorem execGateLapse_endsEmpty : EndsEmpty (execGateLapse s) :=
  endsEmpty_ite (endsEmpty_next (hs.undisturbed (emptyGate_undisturbed s))) (endsEmpty_next hs)

theorem execSettlingExpiry_endsEmpty : EndsEmpty (execSettlingExpiry s) :=
  endsEmpty_ite (hs.ends_eq rfl rfl) (endsEmpty_next hs)

theorem execIdleMinuteDeadline_endsEmpty : EndsEmpty (execIdleMinuteDeadline s) := by
  unfold execIdleMinuteDeadline
  split
  · exact endsEmpty_next hs
  · exact endsEmpty_ite (hs.ends_eq rfl rfl) (endsEmpty_next hs)

/-- The idle timer's expiry takes an OPERATIONAL unit into DORMANT (R25, R188). -/
theorem execIdleTimerExpiry_endsEmpty : EndsEmpty (execIdleTimerExpiry s) := by
  unfold execIdleTimerExpiry
  split
  · exact endsEmpty_next hs
  · refine endsEmpty_ite (endsEmpty_next (ZeroisedEmpty.settleCore ?_)) (endsEmpty_next hs)
    have dormant : ZeroisedEmpty (s.setCustody .dormant).discardCopies := zeroisedEmpty_of_custody (by simp [State.discardCopies])
    unfold enterDormant offerKey
    exact dormant.lapseAssemblies.undisturbed (offer_only _ _ _ _).undisturbed

theorem execSecondsClockAdvance_endsEmpty : EndsEmpty (execSecondsClockAdvance s) :=
  endsEmpty_ite (hs.ends_eq rfl rfl) (endsEmpty_next hs)

theorem execQualificationExpiry_endsEmpty (i : SensorNo) : EndsEmpty (execQualificationExpiry i s) :=
  endsEmpty_ite (endsEmpty_next (hs.trip i).settleCore) (endsEmpty_next hs)

theorem execWindowEnd_endsEmpty : EndsEmpty (execWindowEnd s) :=
  endsEmpty_ite (endsEmpty_next hs.closeWindow.settleCore) (endsEmpty_next hs)

/-! The long operations of the store and the sensor inputs. -/

theorem execSlotVerifyStep_endsEmpty : EndsEmpty (execSlotVerifyStep s) := by
  unfold execSlotVerifyStep
  split
  · exact endsEmpty_next hs
  · next v hv => exact endsEmpty_ite (endsEmpty_next (verifySlot_zeroisedEmpty hs hv _).settleUnit) (endsEmpty_next hs)

/-- The end of a scrub pass, with its KEY notice (R6, R18, R27). -/
theorem endScrub_zeroisedEmpty (v : KeyVariant) (values : Bytes) : ZeroisedEmpty (offerKey v values s.endScrub) := by
  have ended : Undisturbed s s.endScrub := ⟨rfl, fun _ => rfl, rfl, rfl⟩
  exact hs.undisturbed (ended.trans (offer_only _ _ _ _).undisturbed)

theorem execEraseScrubComplete_endsEmpty : EndsEmpty (execEraseScrubComplete s) := by
  unfold execEraseScrubComplete
  split
  · exact endsEmpty_next (endScrub_zeroisedEmpty hs .erased _).releaseVerify.settleCore
  · exact endsEmpty_next hs

theorem execZeroiseScrubComplete_endsEmpty : EndsEmpty (execZeroiseScrubComplete s) := by
  unfold execZeroiseScrubComplete
  split
  · exact endsEmpty_next (endScrub_zeroisedEmpty hs .zeroised _).releaseVerify.settleCore
  · exact endsEmpty_next hs

theorem setInput_zeroisedEmpty (i : SensorNo) (b : Bool) : ZeroisedEmpty (s.setInput i b) := hs.undisturbed (.of_eq rfl rfl)

theorem execSensorInputActive_endsEmpty (i : SensorNo) : EndsEmpty (execSensorInputActive i s) :=
  endsEmpty_ite (endsEmpty_next hs) (endsEmpty_ite (endsEmpty_next (setInput_zeroisedEmpty hs i true))
    (endsEmpty_next ((setInput_zeroisedEmpty hs i true).considerSensor i).settleCore))

theorem inputReturned_zeroisedEmpty (i : SensorNo) : ZeroisedEmpty (inputReturned i s) := by
  unfold inputReturned
  split
  · exact hs.undisturbed (.of_eq rfl rfl)
  · exact hs.undisturbed (releaseSensor_undisturbed i s)
  · exact hs
  · exact hs

theorem execSensorInputInactive_endsEmpty (i : SensorNo) : EndsEmpty (execSensorInputInactive i s) :=
  endsEmpty_ite (endsEmpty_next hs) (endsEmpty_ite (endsEmpty_next (setInput_zeroisedEmpty hs i false))
    (endsEmpty_next (inputReturned_zeroisedEmpty (setInput_zeroisedEmpty hs i false) i).settleUnit))

/-! Power. -/

/-- The main domain's reset leaves the slots' states, ends a verify and frees the Order Unit (R30, R180). -/
theorem mainReset_zeroisedEmpty : ZeroisedEmpty (mainReset s) := by
  intro hc
  obtain ⟨hslots, -, -⟩ := hs hc
  refine ⟨fun n => ?_, rfl, fun x hx => (by cases hx)⟩
  have kept : ((mainReset s).slot n).state = (s.slot n).state := by simp [mainReset, KeyStore.resetMain, State.slot]
  rw [kept, hslots n]

theorem execMainLoss_endsEmpty : EndsEmpty (execMainLoss s) :=
  endsEmpty_ite ((mainReset_zeroisedEmpty hs).ends_eq rfl rfl) (endsEmpty_next hs)

theorem resumeWork_zeroisedEmpty : ZeroisedEmpty (resumeWork s) :=
  hs.undisturbed ((readyCopies_undisturbed s).trans (startIdle_undisturbed _))

theorem restoreVerify_zeroisedEmpty : ZeroisedEmpty (restoreVerify s) := by
  unfold restoreVerify
  split
  · exact hs.undisturbed ⟨rfl, fun _ => rfl, rfl, rfl⟩
  · exact hs.visitFrom .restore 0 0

theorem execMainRestore_endsEmpty : EndsEmpty (execMainRestore s) := by
  have restored : ZeroisedEmpty (restoreDomains s) := (mainReset_zeroisedEmpty hs).undisturbed (.of_eq rfl rfl)
  have reported := restored.undisturbed (reportRestore_undisturbed _)
  exact endsEmpty_ite
    (endsEmpty_next (resumeWork_zeroisedEmpty (restoreVerify_zeroisedEmpty reported.lapseAssemblies)).settleCore) (endsEmpty_next hs)

/-- A warm reset keeps a verify, of which there is none in ZEROISED (R28, R184). -/
theorem warmDomains_zeroisedEmpty : ZeroisedEmpty (warmDomains s) := by
  intro hc
  obtain ⟨-, hverify, -⟩ := hs hc
  exact ⟨(mainReset_zeroisedEmpty hs hc).1, hverify, fun x hx => (by cases hx)⟩

theorem restartVerify_zeroisedEmpty : ZeroisedEmpty (restartVerify s) := by
  unfold restartVerify
  split
  · exact hs
  · exact hs.visitFrom _ 0 0

theorem execWarmReset_endsEmpty : EndsEmpty (execWarmReset s) := by
  have reported : ZeroisedEmpty (offerPower .warmReset none none none (warmDomains s)) :=
    (warmDomains_zeroisedEmpty hs).undisturbed (offer_only _ _ _ _).undisturbed
  exact endsEmpty_ite
    (endsEmpty_next (resumeWork_zeroisedEmpty (restartVerify_zeroisedEmpty reported.lapseAssemblies)).settleCore) (endsEmpty_next hs)

/-- First power leaves the unit in FACTORY (R182). -/
theorem execFirstPower_endsEmpty : EndsEmpty (execFirstPower s) := by
  refine endsEmpty_ite (endsEmpty_next (zeroisedEmpty_of_custody ?_)) (endsEmpty_next hs)
  rw [offerPower, offer_store]
  exact fun hc => (by cases hc)

theorem execBatteryLoss_endsEmpty : EndsEmpty (execBatteryLoss s) :=
  endsEmpty_ite (endsEmpty_next (zeroisedEmpty_of_custody fun hc => (by cases hc))) (endsEmpty_next hs)

/-- The row of an order keeps the invariant. -/
theorem execOrder_endsEmpty {c : Instr} {rule : OrderRule} (h : orderRule c = some rule) : EndsEmpty (exec c s) := by
  rw [exec_order h]
  exact endsEmpty_next (hs.decideOrder (orderRule_keepsEmpty h) (orderRule_passes h))

/-- Every command keeps the invariant. -/
theorem exec_endsEmpty (c : Instr) : EndsEmpty (exec c s) := by
  cases c with
  | orderFrame frame => exact execOrderFrame_endsEmpty hs frame
  | record frame => exact execRecord_endsEmpty hs frame
  | upstreamFrameError frame => exact execUpstreamFrameError_endsEmpty hs frame
  | engineCipherStep => exact execEngineCipherStep_endsEmpty hs
  | loadUnwrapEnd => exact execLoadUnwrapEnd_endsEmpty hs
  | answerBuilt => exact execAnswerBuilt_endsEmpty hs
  | noticeBuilt => exact execNoticeBuilt_endsEmpty hs
  | outcome l frame => exact execOutcome_endsEmpty hs l frame
  | lapse run offset => exact execLapse_endsEmpty hs run offset
  | lineSendBegin l => exact execLineSendBegin_endsEmpty hs l
  | lineSendComplete l => exact execLineSendComplete_endsEmpty hs l
  | lineLinkLoss l => exact execLineLinkLoss_endsEmpty hs l
  | lineLinkRestore l => exact execLineLinkRestore_endsEmpty hs l
  | relayFrame frame => exact execRelayFrame_endsEmpty hs frame
  | onwardSendBegin => exact execOnwardSendBegin_endsEmpty hs
  | onwardSendComplete => exact execOnwardSendComplete_endsEmpty hs
  | upstreamTransmitChoice => exact execUpstreamTransmitChoice_endsEmpty hs
  | upstreamSendComplete => exact execUpstreamSendComplete_endsEmpty hs
  | portLinkLoss p => exact execPortLinkLoss_endsEmpty hs p
  | portLinkRestore p => exact execPortLinkRestore_endsEmpty hs p
  | assemblyLapse n => exact execAssemblyLapse_endsEmpty hs n
  | gateLapse => exact execGateLapse_endsEmpty hs
  | settlingExpiry => exact execSettlingExpiry_endsEmpty hs
  | idleMinuteDeadline => exact execIdleMinuteDeadline_endsEmpty hs
  | idleTimerExpiry => exact execIdleTimerExpiry_endsEmpty hs
  | secondsClockAdvance => exact execSecondsClockAdvance_endsEmpty hs
  | slotVerifyStep => exact execSlotVerifyStep_endsEmpty hs
  | eraseScrubComplete => exact execEraseScrubComplete_endsEmpty hs
  | zeroiseScrubComplete => exact execZeroiseScrubComplete_endsEmpty hs
  | sensorInputActive i => exact execSensorInputActive_endsEmpty hs i
  | sensorInputInactive i => exact execSensorInputInactive_endsEmpty hs i
  | qualificationExpiry i => exact execQualificationExpiry_endsEmpty hs i
  | windowEnd => exact execWindowEnd_endsEmpty hs
  | mainLoss => exact execMainLoss_endsEmpty hs
  | firstPower => exact execFirstPower_endsEmpty hs
  | mainRestore => exact execMainRestore_endsEmpty hs
  | warmReset => exact execWarmReset_endsEmpty hs
  | keyStoreSideCipherStep => exact execKeyStoreSideCipherStep_endsEmpty hs
  | batteryLoss => exact execBatteryLoss_endsEmpty hs
  | _ => exact execOrder_endsEmpty hs rfl

theorem tick_zeroisedEmpty : ZeroisedEmpty (tick s) := by
  unfold tick
  split
  · exact hs.undisturbed (.of_eq rfl rfl)
  · exact hs

end

/-- Settles O5: every step keeps the invariant, an idle one as every command does. -/
theorem zeroisedStaysEmpty : Obligations.ZeroisedStaysEmpty := by
  intro s t hs ht
  unfold step at ht
  split at ht
  · obtain rfl : tick s = t := by injection ht
    exact tick_zeroisedEmpty hs
  · next c rest _ => exact exec_endsEmpty (s := { s with pending := rest }) (hs.undisturbed (.of_eq rfl rfl)) c t ht

end Sys2Proof.Machine
end

section
/-! Proofs. The use of a key (R20, R21), and the store's orders: what an order's checks come to once its operands are read, the screen
(R5), and the events at which an order is decided untagged. -/

namespace Sys2Proof.Machine

/-! ### Checks -/

@[simp] theorem need_true (r : OrderResult) : need true r = .ok () := rfl
@[simp] theorem need_false (r : OrderResult) : need false r = .error r := rfl

@[simp] theorem checked_ok {α : Type} (a : α) (s : State) (k : α → Taken) : checked (.ok a) s k = k a := rfl
@[simp] theorem checked_error {α : Type} (r : OrderResult) (s : State) (k : α → Taken) :
    checked (.error r) s k = .answered r [] s := rfl

@[simp] theorem ok_bind {α β : Type} (a : α) (f : α → Except OrderResult β) : (Except.ok a >>= f) = f a := rfl
@[simp] theorem error_bind {α β : Type} (r : OrderResult) (f : α → Except OrderResult β) :
    ((.error r : Except OrderResult α) >>= f) = .error r := rfl
@[simp] theorem pure_ok {α : Type} (a : α) : (pure a : Except OrderResult α) = .ok a := rfl

/-! ### Key uses -/

/-- A saturating counter below its maximum rises by one, and at it sets its limit flag (0.12). -/
theorem bumpCounter_eq (max : Nat) (c : Counter) :
    bumpCounter max c = if c.value < max then { c with value := c.value + 1 } else { c with limit := true } := by
  unfold bumpCounter
  split
  · next h => rw [if_neg (by omega)]
  · next h => rw [if_pos (by omega)]

theorem underCeiling_iff (k : Slot) : k.underCeiling = true ↔ k.ceiling = 0 ∨ k.uses.value < k.ceiling := by
  simp [Slot.underCeiling]

/-- A slot at or above a nonzero ceiling is not under it (R3). -/
theorem underCeiling_false_iff (k : Slot) : k.underCeiling = false ↔ k.ceiling ≠ 0 ∧ k.ceiling ≤ k.uses.value := by
  rw [← Bool.not_eq_true, underCeiling_iff, not_or, Nat.not_lt]

theorem spent_iff (k : Slot) : k.spent = true ↔ k.state = .active ∧ k.ceiling ≠ 0 ∧ k.uses.value = k.ceiling := by
  simp [Slot.spent, and_assoc]

/-- A slot after one more use (R20). -/
def Slot.used (k : Slot) : Slot := { k with uses := bumpCounter max32 k.uses }

/-- A counted use that leaves the slot usable changes its record alone (R20). -/
theorem countUse_of_not_spent {s : State} {n : SlotNo} (h : (s.slot n).used.spent = false) :
    s.countUse n = s.setSlot n (s.slot n).used := by
  unfold State.countUse
  simp only [setSlot_slot_self]
  rw [if_neg (by rw [show ({ s.slot n with uses := bumpCounter max32 (s.slot n).uses } : Slot) = (s.slot n).used from rfl, h]; simp)]
  rfl

/-- A counted use that brings the counter to its ceiling is reported to the runs and the lines (R21, R23, R102). -/
theorem countUse_of_spent {s : State} {n : SlotNo} (h : (s.slot n).used.spent = true) :
    s.countUse n = lineNotices s ((s.setSlot n (s.slot n).used).reportUnusable n) := by
  unfold State.countUse
  simp only [setSlot_slot_self]
  rw [if_pos (by rw [show ({ s.slot n with uses := bumpCounter max32 (s.slot n).uses } : Slot) = (s.slot n).used from rfl, h])]
  rfl

/-- A use of a slot that fits the request and stands under its ceiling is granted and counted (R20). -/
theorem requestUse_granted {s : State} {n : SlotNo} {u : UseKind} (hc : s.store.custody = .operational) (hs : s.suspended = false)
    (ha : (s.slot n).state = .active) (hk : (s.slot n).cls = some u.cls) (hu : (s.slot n).underCeiling = true) :
    requestUse n u s = (.ok ((s.slot n).key.getD 0), s.countUse n) := by
  simp [requestUse, hc, hs, ha, hk, hu]

/-- A request that the store, the slot or its class does not admit is refused, and changes nothing (R20). -/
theorem requestUse_unavailable {s : State} {n : SlotNo} {u : UseKind}
    (h : s.store.custody ≠ .operational ∨ s.suspended = true ∨ (s.slot n).state ≠ .active ∨ (s.slot n).cls ≠ some u.cls) :
    requestUse n u s = (.error .keyUnavailable, s) := by
  unfold requestUse
  simp only []
  split
  · rfl
  · split
    · rfl
    · split
      · rfl
      · tauto

/-- A request at the slot's ceiling is refused KEY SPENT, with its notice (R21). -/
theorem requestUse_spent {s : State} {n : SlotNo} {u : UseKind} (hc : s.store.custody = .operational) (hs : s.suspended = false)
    (ha : (s.slot n).state = .active) (hk : (s.slot n).cls = some u.cls) (hu : (s.slot n).underCeiling = false) :
    requestUse n u s =
      (.error .keySpent, offerKey .spent ([byteOf n.val] ++ be32 (s.slot n).uses.value ++ be32 (s.slot n).ceiling) s) := by
  simp [requestUse, hc, hs, ha, hk, hu]

/-- The report that a slot has ceased to be usable (R46). -/
theorem reportUnusable_eq (n : SlotNo) (s : State) :
    s.reportUnusable n =
      { s with
        runs := { s.runs with
          table := s.runs.table.map fun r =>
            if (r.master = n ∨ r.prep = some n) ∧ (r.state = .defined ∨ r.state = .live ∨ r.state = .held) then
              { r with holds := { r.holds with key := true }, state := if r.state = .live then .held else r.state }
            else r } } := by
  have each : ∀ r : Run, (r.names n && r.takesKeyCause) = true ↔
      (r.master = n ∨ r.prep = some n) ∧ (r.state = .defined ∨ r.state = .live ∨ r.state = .held) := by
    intro r
    rw [Bool.and_eq_true, takesKeyCause_iff]
    simp [Run.names]
  simp only [State.reportUnusable, each, Run.addCause]

/-- Settles O17: the checks of a request in order, and the report of a slot that has ceased to be usable. -/
theorem keyUseIsAnswered : Obligations.KeyUseIsAnswered := by
  refine ⟨fun n u s => ?_, reportUnusable_eq⟩
  intro k counted
  have used : k.used = counted := by
    simp only [Slot.used, bumpCounter_eq]; rfl
  refine ⟨requestUse_unavailable, fun hc hs ha hk => ⟨fun h0 hle => ?_, fun hroom => ⟨fun h => ?_, fun heq h0 => ?_⟩⟩⟩
  · exact requestUse_spent hc hs ha hk ((underCeiling_false_iff _).2 ⟨h0, hle⟩)
  · have unspent : k.used.spent = false := by
      rw [← Bool.not_eq_true, spent_iff, used]; rintro ⟨-, h0, he⟩; exact h.elim (fun h => h he) h0
    rw [requestUse_granted hc hs ha hk ((underCeiling_iff _).2 hroom), countUse_of_not_spent unspent]
    rw [show (s.slot n).used = counted from used]
  · have spent : k.used.spent = true := by rw [spent_iff, used]; exact ⟨ha, h0, heq⟩
    rw [requestUse_granted hc hs ha hk ((underCeiling_iff _).2 hroom), countUse_of_spent spent]
    rw [show (s.slot n).used = counted from used]

/-! ### The unit at the decision of an order handled untagged -/

/-- The end of the decision's step changes the Core alone (R32). -/
theorem endDecisionStep_only (s : State) (h : OrderInHand) :
    s.endDecisionStep h = { s with core := (s.endDecisionStep h).core } := by
  unfold State.endDecisionStep; split <;> rfl

@[simp] theorem endDecisionStep_store (s : State) (h : OrderInHand) : (s.endDecisionStep h).store = s.store := by
  rw [endDecisionStep_only]

@[simp] theorem endDecisionStep_power (s : State) (h : OrderInHand) : (s.endDecisionStep h).power = s.power := by
  rw [endDecisionStep_only]

@[simp] theorem endDecisionStep_time (s : State) (h : OrderInHand) : (s.endDecisionStep h).time = s.time := by
  rw [endDecisionStep_only]

@[simp] theorem endDecisionStep_tamper (s : State) (h : OrderInHand) : (s.endDecisionStep h).tamper = s.tamper := by
  rw [endDecisionStep_only]

@[simp] theorem endDecisionStep_queue (s : State) (h : OrderInHand) : (s.endDecisionStep h).core.queue = s.core.queue := by
  unfold State.endDecisionStep; split <;> rfl

@[simp] theorem endDecisionStep_slot (s : State) (h : OrderInHand) (n : SlotNo) : (s.endDecisionStep h).slot n = s.slot n := by
  simp [State.slot]

@[simp] theorem endDecisionStep_settling (s : State) (h : OrderInHand) : (s.endDecisionStep h).isSettling = s.isSettling := by
  simp [State.isSettling]

@[simp] theorem endDecisionStep_busy (s : State) (h : OrderInHand) : (s.endDecisionStep h).busy = s.busy := by
  simp [State.busy]

theorem endDecisionStep_quiet {rule : OrderRule} {h : OrderInHand} {st : Standing} {s : State} (a : Handles rule h st s) :
    (s.endDecisionStep h).quietQueue := quietQueue_of_queue a.decides.quiet (endDecisionStep_queue s h)

/-! ### The screen -/

theorem screen_settling {s : State} (h : s.isSettling = true) (l : Bool) : s.screen l = .error .settling := by
  simp [State.screen, h]

theorem screen_busy {s : State} (h : s.isSettling = false) (hb : s.busy = true) (l : Bool) : s.screen l = .error .busy := by
  simp [State.screen, h, hb]

theorem screen_suspended {s : State} (h : s.isSettling = false) (hb : s.busy = false) (hs : s.suspended = true) :
    s.screen true = .error .suspended := by
  simp [State.screen, h, hb, hs]

/-- A store that is neither SETTLING nor BUSY passes the orders that are no loading orders (R5). -/
theorem screen_clear {s : State} (h : s.isSettling = false) (hb : s.busy = false) : s.screen false = .ok () := by
  simp [State.screen, h, hb]

/-- A loading order passes when the store is not SUSPENDED either (R5). -/
theorem screen_loading {s : State} (h : s.isSettling = false) (hb : s.busy = false) (hs : s.suspended = false) :
    s.screen true = .ok () := by
  simp [State.screen, h, hb, hs]

/-- The screen as acceptance leaves it. -/
theorem acceptedState_screen (h : OrderInHand) (s : State) (l : Bool) : (acceptedState h s).screen l = s.screen l := by
  simp [State.screen]

/-- The screen of an order handled untagged; no loading order is. -/
theorem endDecisionStep_screen (s : State) (h : OrderInHand) : (s.endDecisionStep h).screen false = s.screen false := by
  simp [State.screen]

/-- An order whose own rule begins with the store's screen (R5). -/
def OrderRule.Screened (rule : OrderRule) (loading : Bool) : Prop :=
  ∀ a s r, s.screen loading = .error r → rule.take a s = refused r s

/-- Checks that begin with the screen are refused by it. -/
theorem screened_of_bind {α : Type} {rule : OrderRule} {loading : Bool} (f : OrderArgs → State → Except OrderResult α)
    (k : OrderArgs → State → α → Taken)
    (h : ∀ a s, rule.take a s = checked (s.screen loading >>= fun _ => f a s) s (k a s)) : rule.Screened loading := by
  intro a s r hr
  rw [h, hr]; rfl

/-- The three loading orders are screened as such (R5). -/
theorem loadingOrders_screened {i : Instr} {rule : OrderRule} (hi : orderRule i = some rule)
    (h : i ∈ [.beginKey, .loadComponent, .loadWrappedKey]) : rule.Screened true := by
  simp only [List.mem_cons, List.not_mem_nil, or_false] at h
  rcases h with rfl | rfl | rfl <;> cases hi <;> exact screened_of_bind _ _ fun _ _ => rfl

/-- The other orders the store screens (R5). -/
theorem storeOrders_screened {i : Instr} {rule : OrderRule} (hi : orderRule i = some rule)
    (h : i ∈ [.eraseSlot, .retireSlot, .lockSlot, .unlockSlot, .setCeiling, .wake, .ackTamper true, .ackTamper false]) :
    rule.Screened false := by
  simp only [List.mem_cons, List.not_mem_nil, or_false] at h
  rcases h with rfl | rfl | rfl | rfl | rfl | rfl | rfl | rfl <;> cases hi <;> exact screened_of_bind _ _ fun _ _ => rfl

/-- LOAD CLEAR and COMMISSION are screened once the contact is found asserted (R9, R10). -/
theorem contactOrders_screened {i : Instr} {rule : OrderRule} (hi : orderRule i = some rule)
    (h : i ∈ [.loadClear true, .commission true]) : rule.Screened false := by
  simp only [List.mem_cons, List.not_mem_nil, or_false] at h
  rcases h with rfl | rfl <;> cases hi <;> exact screened_of_bind _ _ fun _ _ => rfl

/-- No order that the store screens is a grant. -/
theorem storeOrders_cls {i : Instr} {rule : OrderRule} (hi : orderRule i = some rule)
    (h : i ∈ [.beginKey, .loadComponent, .loadWrappedKey, .eraseSlot, .retireSlot, .lockSlot, .unlockSlot, .setCeiling, .wake,
      .ackTamper true, .ackTamper false]) : rule.cls ≠ .grant := by
  simp only [List.mem_cons, List.not_mem_nil, or_false] at h
  rcases h with rfl | rfl | rfl | rfl | rfl | rfl | rfl | rfl | rfl | rfl | rfl <;> cases hi <;> decide

/-- An accepted order that the screen refuses is answered with the refusal, and the store is as acceptance left it (R5). -/
theorem accepted_screen_refuses {i : Instr} {rule : OrderRule} {h : OrderInHand} {s : State} {loading : Bool} {r : OrderResult}
    (hi : orderRule i = some rule) (hc : rule.cls ≠ .grant) (hs : rule.Screened loading) (a : Accepting rule h s)
    (hr : s.screen loading = .error r) : ∃ t, exec i s = .next t ∧ AnswersWith h r [] (acceptedState h s) t :=
  accepted_row hi a hc (acceptedState_quiet a) (hs _ _ r (by rw [acceptedState_screen, hr]))

/-- An order handled untagged that the screen refuses (R9, R10, R29). -/
theorem untagged_screen_refuses {i : Instr} {rule : OrderRule} {h : OrderInHand} {s : State} {r : OrderResult}
    (hi : orderRule i = some rule) (hs : rule.Screened false) (a : Handles rule h .untagged s) (hr : s.screen false = .error r) :
    ∃ t, exec i s = .next t ∧ AnswersUntagged h r [] (s.endDecisionStep h) t :=
  untagged_row hi a (endDecisionStep_quiet a) (hs _ _ r (by rw [endDecisionStep_screen, hr]))

/-- Settles O24: SETTLING, then BUSY, then SUSPENDED for the loading orders, each from the order's first check. -/
theorem storeScreensOrders : Obligations.StoreScreensOrders := by
  intro i rule h s hi
  refine ⟨fun hm a => ?_, fun hm a h1 h2 h3 => ?_, fun hm a => ?_, fun hm a _ => ?_⟩
  · have cls := storeOrders_cls hi hm
    have screened : ∃ loading, rule.Screened loading := by
      simp only [List.mem_cons, List.not_mem_nil, or_false] at hm
      by_cases hl : i ∈ [.beginKey, .loadComponent, .loadWrappedKey]
      · exact ⟨true, loadingOrders_screened hi hl⟩
      · refine ⟨false, storeOrders_screened hi ?_⟩
        simp only [List.mem_cons, List.not_mem_nil, or_false] at hl ⊢
        tauto
    obtain ⟨loading, screened⟩ := screened
    exact ⟨fun h1 => accepted_screen_refuses hi cls screened a (screen_settling h1 _),
      fun h1 h2 => accepted_screen_refuses hi cls screened a (screen_busy h1 h2 _)⟩
  · have listed : i ∈ [.beginKey, .loadComponent, .loadWrappedKey, .eraseSlot, .retireSlot, .lockSlot, .unlockSlot, .setCeiling,
        .wake, .ackTamper true, .ackTamper false] := by
      simp only [List.mem_cons, List.not_mem_nil, or_false] at hm ⊢
      tauto
    exact accepted_screen_refuses hi (storeOrders_cls hi listed) (loadingOrders_screened hi hm) a (screen_suspended h1 h2 h3)
  · have screened := contactOrders_screened hi hm
    exact ⟨fun h1 => untagged_screen_refuses hi screened a (screen_settling h1 _),
      fun h1 h2 => untagged_screen_refuses hi screened a (screen_busy h1 h2 _)⟩
  · have listed : i ∈ [.eraseSlot, .retireSlot, .lockSlot, .unlockSlot, .setCeiling, .wake, .ackTamper true, .ackTamper false] := by
      simp only [List.mem_cons, List.not_mem_nil, or_false] at hm ⊢
      tauto
    have screened := storeOrders_screened hi listed
    exact ⟨fun h1 => untagged_screen_refuses hi screened a (screen_settling h1 _),
      fun h1 h2 => untagged_screen_refuses hi screened a (screen_busy h1 h2 _)⟩

end Sys2Proof.Machine
end

section
/-! Proofs. BEGIN KEY (R11) and the three orders of FACTORY that need the commissioning contact (R9, R10, R142). -/

namespace Sys2Proof.Machine

/-- The row of an accepted order whose own checks refuse it (R152). -/
theorem accepted_refused {i : Instr} {rule : OrderRule} {h : OrderInHand} {s : State} {r : OrderResult}
    (hi : orderRule i = some rule) (hc : rule.cls ≠ .grant) (a : Accepting rule h s)
    (ht : rule.take { number := h.number, custodian := s.order.gate.custodian, params := h.params } (acceptedState h s) =
      .answered r [] (acceptedState h s)) :
    ∃ t, exec i s = .next t ∧ AnswersWith h r [] (acceptedState h s) t :=
  accepted_row hi a hc (acceptedState_quiet a) ht

/-- The row of an order handled untagged whose own checks refuse it (R152). -/
theorem untagged_refused {i : Instr} {rule : OrderRule} {h : OrderInHand} {s : State} {r : OrderResult}
    (hi : orderRule i = some rule) (a : Handles rule h .untagged s)
    (ht : rule.take { number := h.number, custodian := s.order.gate.custodian, params := h.params } (s.endDecisionStep h) =
      .answered r [] (s.endDecisionStep h)) :
    ∃ t, exec i s = .next t ∧ AnswersUntagged h r [] (s.endDecisionStep h) t :=
  untagged_row hi a (endDecisionStep_quiet a) ht

/-! ### BEGIN KEY -/

theorem labelled_iff (c : KeyClass) : labelled c = true ↔ c = .prep ∨ c = .master := by simp [labelled]

/-- The checks of BEGIN KEY once its slot and class are read, in their order (R11). -/
theorem checkBeginKey_of_operands {ps : Bytes} {s : State} {n : SlotNo} {c : KeyClass} (hs : s.screen true = .ok ())
    (hn : (byteAt ps 0).toNat = n.val) (h7 : 7 ≤ n.val) (hc : byteAt ps 1 = c.code) :
    checkBeginKey ps s =
      (do
        need (assembledClass c) .range
        need (decide ((byteAt ps 2).toNat = 2) || decide ((byteAt ps 2).toNat = 3)) .range
        need (!(s.slot n).lock) .locked
        need (decide ((s.slot n).state = .empty)) .exists
        pure (n, c)) := by
  simp only [checkBeginKey, hs, generalSlotOf_eq hn h7, hc, classOf_code, ok_bind]

theorem assembledClass_iff (c : KeyClass) : assembledClass c = true ↔ c ≠ .mgmt ∧ c ≠ .custodian := by cases c <;> decide

/-- Settles O29: the checks of R11 in order, then the ASSEMBLING slot. -/
theorem beginKeyAssembles : Obligations.BeginKeyAssembles := by
  intro s h a h1 h2 h3 u refusedWith
  have hs : u.screen true = .ok () := by rw [acceptedState_screen]; exact screen_loading h1 h2 h3
  have taken : ∀ p, checkBeginKey h.params u = p →
      beginKeyRule.take { number := h.number, custodian := s.order.gate.custodian, params := h.params } u =
        checked p u fun p => .answered .done [] (u.setSlot p.1 (assemblingSlot (u.slot p.1) p.2 h.params (u.after 600000))) := by
    rintro _ rfl; rfl
  have refuses : ∀ r, checkBeginKey h.params u = .error r → refusedWith r := fun r e =>
    accepted_refused rfl (by decide) a (taken _ e)
  refine ⟨fun hb => refuses _ ?_, fun hb => refuses _ ?_, fun h7 h64 hc => refuses _ ?_, fun n c hn h7 hc => ?_⟩
  · simp only [checkBeginKey, hs, generalSlotOf_high hb, ok_bind, error_bind]
  · simp only [checkBeginKey, hs, generalSlotOf_low hb, ok_bind, error_bind]
  · have general := generalSlotOf_eq (b := byteAt h.params 0) (n := ⟨_, h64⟩) rfl h7
    simp only [checkBeginKey, hs, general, classOf_other hc, ok_bind, error_bind]
  · have checks := checkBeginKey_of_operands hs hn h7 hc
    have slot : u.slot n = s.slot n := acceptedState_slot h s n
    rw [slot] at checks
    refine ⟨fun hcls => refuses _ ?_, fun hm hcu => ?_⟩
    · rw [checks]
      rcases hcls with rfl | rfl <;> rfl
    · have cls : assembledClass c = true := (assembledClass_iff c).2 ⟨hm, hcu⟩
      simp only [cls, need_true, ok_bind] at checks
      refine ⟨fun hcount => refuses _ ?_, fun hcount => ?_⟩
      · simp only [checks, hcount.1, hcount.2, decide_false, Bool.or_self, need_false, error_bind]
      · have count : (decide ((byteAt h.params 2).toNat = 2) || decide ((byteAt h.params 2).toNat = 3)) = true := by
          simpa using hcount
        simp only [count, need_true, ok_bind] at checks
        refine ⟨fun hl => refuses _ ?_, fun hl he => refuses _ ?_, fun hl he => ?_⟩
        · simp only [checks, hl, Bool.not_true, need_false, error_bind]
        · simp only [checks, hl, he, decide_false, Bool.not_false, need_true, need_false, ok_bind, error_bind]
        · have passes : checkBeginKey h.params u = .ok (n, c) := by
            simp only [checks, hl, he, decide_true, Bool.not_false, need_true, ok_bind, pure_ok]
          refine accepted_row rfl a (by decide) (quietQueue_of_queue (acceptedState_quiet a) rfl) ?_
          rw [taken _ passes]
          simp only [checked_ok, assemblingSlot, slot, hl, labelled_iff, Slot.blank, State.after, u, acceptedState_time]
          rfl

/-! ### LOAD CLEAR, SET UNIT, COMMISSION -/

theorem commissioningSlotOf_eq {b : Byte} {n : SlotNo} (h : b.toNat = n.val) (h6 : n.val ≤ 6) : commissioningSlotOf b = .ok n := by
  have low : n.val < 7 := by omega
  simp only [commissioningSlotOf, slotOf_eq h, ok_bind, low, decide_true, need_true, pure_ok]

theorem commissioningSlotOf_general {b : Byte} (h7 : 7 ≤ b.toNat) (h63 : b.toNat ≤ 63) : commissioningSlotOf b = .error .range := by
  have read : slotOf b = .ok ⟨b.toNat, by omega⟩ := slotOf_eq rfl
  have high : ¬b.toNat < 7 := by omega
  simp only [commissioningSlotOf, read, ok_bind, high, decide_false, need_false, error_bind]

theorem commissioningSlotOf_high {b : Byte} (h : 64 ≤ b.toNat) : commissioningSlotOf b = .error .noSuch := by
  simp only [commissioningSlotOf, slotOf_high h, error_bind]

/-- Without the commissioning contact its three orders are NOT PERMITTED (R142). -/
theorem take_without_contact {i : Instr} {rule : OrderRule} (hi : orderRule i = some rule)
    (h : i ∈ [.loadClear false, .setUnit false, .commission false]) (a : OrderArgs) (s : State) :
    rule.take a s = .answered .notPermitted [] s := by
  simp only [List.mem_cons, List.not_mem_nil, or_false] at h
  rcases h with rfl | rfl | rfl <;> cases hi <;> rfl

/-- LOAD CLEAR with the contact asserted, past the screen: its slot, then its check value (R9). -/
theorem takeLoadClear_contact {a : OrderArgs} {s : State} (hs : s.screen false = .ok ()) :
    takeLoadClear true a s =
      let key := blockOfBytes (sliceBytes a.params 1 16)
      let check := checkOfBytes (sliceBytes a.params 17 3)
      checked
        (do
          let n ← commissioningSlotOf (byteAt a.params 0)
          need (decide (checkValue key = check)) .checkMismatch
          pure n)
        s fun n => .answered .done [] (s.setSlot n ((s.slot n).loadedClear n key check)) := by
  simp only [takeLoadClear, hs, need_true, ok_bind]

/-- COMMISSION with the contact asserted, past the screen (R10). -/
theorem takeCommission_contact {a : OrderArgs} {s : State} (hs : s.screen false = .ok ()) :
    takeCommission true a s =
      checked (need (decide ((s.slot 0).state = .active) && decide (2 ≤ s.activeCustodians)) .notPermitted) s
        fun _ => .answered .done [] (engineTake (s.setCustody .operational).startIdle) := by
  simp only [takeCommission, hs, need_true, ok_bind]

/-- The unit becomes OPERATIONAL and the idle timer starts, unless its limit is 0 (R10, R187). -/
theorem setCustody_operational_startIdle (s : State) :
    (s.setCustody .operational).startIdle =
      { s with
        store := { s.store with custody := .operational }
        power := { s.power with
          idle := if s.power.idleLimit = 0 then s.power.idle
            else some { minutes := s.power.idleLimit, deadline := s.time.millis + 60000 } } } := by
  unfold State.startIdle State.setCustody
  by_cases hl : s.power.idleLimit = 0
  · simp [hl]
  · simp [hl, State.after]

/-- Settles O28: each order's checks in order, and its effect. -/
theorem commissioningOrders : Obligations.CommissioningOrders := by
  intro s h u key
  have screened (h1 : s.isSettling = false) (h2 : s.busy = false) : u.screen false = .ok () := by
    rw [endDecisionStep_screen]; exact screen_clear h1 h2
  refine ⟨fun i rule hm hi a => untagged_refused hi a (take_without_contact hi hm _ _), fun n a h1 h2 hn h6 => ?_,
    fun a h1 h2 => ?_, fun chainEnd a hf => ?_, fun a h1 h2 => ?_⟩
  · have taken := takeLoadClear_contact (screened h1 h2)
      (a := { number := h.number, custodian := s.order.gate.custodian, params := h.params })
    simp only [commissioningSlotOf_eq hn h6, ok_bind] at taken
    refine ⟨fun hcheck => ?_, fun hcheck => untagged_refused rfl a ?_⟩
    · refine untagged_row rfl a (quietQueue_of_queue (endDecisionStep_quiet a) rfl) (taken.trans ?_)
      rw [decide_eq_true hcheck, hcheck]
      simp only [need_true, ok_bind, pure_ok, checked_ok, Slot.loadedClear, Slot.blank, u, endDecisionStep_slot]
      rfl
    · exact taken.trans (by rw [decide_eq_false hcheck]; rfl)
  · have taken := takeLoadClear_contact (screened h1 h2)
      (a := { number := h.number, custodian := s.order.gate.custodian, params := h.params })
    refine ⟨fun h7 h63 => untagged_refused rfl a (taken.trans ?_), fun h64 => untagged_refused rfl a (taken.trans ?_)⟩
    · simp only [commissioningSlotOf_general h7 h63, error_bind, checked_error]; rfl
    · simp only [commissioningSlotOf_high h64, error_bind, checked_error]; rfl
  · have taken : ∀ x, takeSetUnit true { number := h.number, custodian := x, params := h.params } u =
        checked (do need (decide ((byteAt h.params 0).toNat ≤ 30)) .range; flagOf (byteAt h.params 1)) u
          fun c => .answered .done [] { u with link := { u.link with address := (byteAt h.params 0).toNat, chainEnd := c } } :=
      fun _ => rfl
    refine ⟨fun hle => ?_, fun hlt => ?_⟩
    · refine untagged_row rfl a (quietQueue_of_queue (endDecisionStep_quiet a) rfl) ((taken _).trans ?_)
      rw [decide_eq_true hle, hf, flagOf_flagByte]; rfl
    · refine untagged_refused rfl a ((taken _).trans ?_)
      rw [decide_eq_false (by omega)]; rfl
  · have taken := takeCommission_contact (screened h1 h2)
      (a := { number := h.number, custodian := s.order.gate.custodian, params := h.params })
    have slot0 : u.slot 0 = s.slot 0 := endDecisionStep_slot s h 0
    have custodians : u.activeCustodians = s.activeCustodians := by simp [State.activeCustodians, u]
    rw [slot0, custodians] at taken
    refine ⟨fun h0 hc => ?_, fun hc => untagged_refused rfl a (taken.trans ?_)⟩
    · refine untagged_row rfl a ?_ (taken.trans ?_)
      · exact (engineTake_apart _).quietQueue (quietQueue_of_queue (endDecisionStep_quiet a) rfl)
      · rw [decide_eq_true h0, decide_eq_true hc]
        simp only [Bool.and_self, need_true, checked_ok, setCustody_operational_startIdle, u, endDecisionStep_power,
          endDecisionStep_time]
    · have lacks : (decide ((s.slot 0).state = .active) && decide (2 ≤ s.activeCustodians)) = false := by
        simp only [Bool.and_eq_false_iff, decide_eq_false_iff_not]
        exact hc.imp id Nat.not_le.2
      rw [lacks]; rfl

end Sys2Proof.Machine
end

section
/-! Proofs. LOAD COMPONENT and LOAD WRAPPED KEY (R12, R15): their checks in order, and the wait for the unwrap step (R42). -/

namespace Sys2Proof.Machine

/-- A load that waits for its unwrap step presents the decipherment, counted when the unwrapping slot is a general one (R42). -/
theorem Load.step_unwrap {l : Load} {m : SlotNo} {key wrapped : Block} (h : l.stage = .unwrap m key wrapped) :
    l.step =
      { user := .load, step := { fn := .dec, key := key, block := wrapped }, counts := if 7 ≤ m.val then some m else none } := by
  simp only [Load.step, h]
  by_cases h7 : 7 ≤ m.val
  · rw [if_neg (by omega), if_pos h7]
  · rw [if_pos (by omega), if_neg h7]

/-- The row of an accepted loading order refused at the ceiling of its unwrapping slot, with the KEY notice SPENT (R12, R15, R21). -/
theorem accepted_spent {i : Instr} {rule : OrderRule} {h : OrderInHand} {s : State} {m : SlotNo} (hi : orderRule i = some rule)
    (hc : rule.cls ≠ .grant) (a : Accepting rule h s)
    (ht : rule.take { number := h.number, custodian := s.order.gate.custodian, params := h.params } (acceptedState h s) =
      .answered .notPermitted [] (offerSpent m (acceptedState h s))) :
    ∃ t, exec i s = .next t ∧
      AnswersWith h .notPermitted []
        (offer .key 0x04 ([byteOf m.val] ++ be32 (s.slot m).uses.value ++ be32 (s.slot m).ceiling) (acceptedState h s)) t := by
  have told : offerSpent m (acceptedState h s) =
      offer .key 0x04 ([byteOf m.val] ++ be32 (s.slot m).uses.value ++ be32 (s.slot m).ceiling) (acceptedState h s) := by
    simp only [offerSpent, offerKey, acceptedState_slot]; rfl
  rw [told] at ht
  exact accepted_row hi a hc (quietQueue_of_queue (acceptedState_quiet a) (by rw [offer_core])) ht

/-- The row of an accepted loading order that passes: the gate is emptied, the order waits, and its unwrap step is in the Core, its use
counted when the unwrapping slot is a general one, or waits (R12, R15, R42). -/
theorem held_unwrap {i : Instr} {rule : OrderRule} {h : OrderInHand} {s : State} {kind : LoadKind} {m : SlotNo} {wrapped : Block}
    (hi : orderRule i = some rule) (acc : Accepting rule h s) (hcore : CoreTidy s) (hm : (s.slot m).state = .active)
    (ht : rule.take { number := h.number, custodian := s.order.gate.custodian, params := h.params } (acceptedState h s) =
      .held { kind := kind, stage := .unwrap m ((s.slot m).key.getD 0) wrapped, zeroised := false } (acceptedState h s)) :
    let unwrap : KsStep :=
      { user := .load, step := { fn := .dec, key := (s.slot m).key.getD 0, block := wrapped },
        counts := if 7 ≤ m.val then some m else none }
    let load : Load := { kind := kind, stage := .unwrap m ((s.slot m).key.getD 0) wrapped, zeroised := false }
    let u := { acceptedState h s with
      order := { (acceptedState h s).order with
        gate := { grants := [], deadline := none }, hand := some { h with handling := .loading load } } }
    ∃ t, exec i s = .next t ∧ (t.core.work = .keyStore unwrap false ∨ unwrap ∈ t.core.queue) ∧
      (t.core.work = .keyStore unwrap false → 7 ≤ m.val → SettlesTo (u.countUse m) t) ∧
      (t.core.work ≠ .keyStore unwrap false ∨ m.val < 7 → SettlesTo u t) := by
  intro unwrap load u
  have step : load.step = unwrap := Load.step_unwrap rfl
  have active : ∀ x, load.step.counts = some x → (s.slot x).state = .active := by
    intro x hx
    rw [step] at hx
    by_cases h7 : 7 ≤ m.val
    · obtain rfl : m = x := by simpa [unwrap, h7] using hx
      exact hm
    · simp [unwrap, h7] at hx
  obtain ⟨t, run, presents, begun, waits⟩ := held_row hi acc hcore ht active
  rw [show ({ kind := kind, stage := .unwrap m ((s.slot m).key.getD 0) wrapped, zeroised := false } : Load).step = unwrap from step]
    at presents begun waits
  refine ⟨t, run, presents, fun w h7 => begun m w (by simp [unwrap, h7]), fun w => waits (w.imp id fun hlt => ?_)⟩
  simp [unwrap, Nat.not_le.2 hlt]

/-! ### LOAD COMPONENT -/

/-- The slot a component may be wrapped under: for an IMPORT key the granting custodian's, otherwise an IMPORT slot (R12 step 3). -/
def unwrapFits (s : State) (n m : SlotNo) (custodian : Nat) : Prop :=
  ((s.slot n).cls = some .importing ∧ m.val = custodian) ∨
    ((s.slot n).cls ≠ some .importing ∧ 7 ≤ m.val ∧ (s.slot m).cls = some .importing)

theorem unwrapFits_iff (s : State) (n m : SlotNo) (custodian : Nat) :
    (if (s.slot n).cls = some .importing then decide (m.val = custodian)
      else decide (7 ≤ m.val) && decide ((s.slot m).cls = some .importing)) = true ↔ unwrapFits s n m custodian := by
  unfold unwrapFits
  split
  · next h => simp [h]
  · next h => simp [h]

section
variable {ps : Bytes} {s : State} {custodian : Nat} {n : SlotNo} (hs : s.screen true = .ok ())
  (hn : (byteAt ps 0).toNat = n.val) (h7 : 7 ≤ n.val)
include hs hn h7

theorem checkLoadComponent_not_assembling (ha : (s.slot n).state ≠ .assembling) :
    checkLoadComponent custodian ps s = .error .noSuch := by
  simp only [checkLoadComponent, hs, generalSlotOf_eq hn h7, ok_bind, ha, decide_false, need_false, error_bind]

theorem checkLoadComponent_no_unwrap (ha : (s.slot n).state = .assembling) (hm : 64 ≤ (byteAt ps 1).toNat) :
    checkLoadComponent custodian ps s = .error .noSuch := by
  simp only [checkLoadComponent, hs, generalSlotOf_eq hn h7, ok_bind, ha, decide_true, need_true, slotOf_high hm, error_bind]

theorem checkLoadComponent_misfit {m : SlotNo} (ha : (s.slot n).state = .assembling) (hm : (byteAt ps 1).toNat = m.val)
    (hf : ¬unwrapFits s n m custodian) : checkLoadComponent custodian ps s = .error .range := by
  rw [← unwrapFits_iff, Bool.not_eq_true] at hf
  simp only [checkLoadComponent, hs, generalSlotOf_eq hn h7, ok_bind, ha, decide_true, need_true, slotOf_eq hm, hf, need_false,
    error_bind]

theorem checkLoadComponent_inactive {m : SlotNo} (ha : (s.slot n).state = .assembling) (hm : (byteAt ps 1).toNat = m.val)
    (hf : unwrapFits s n m custodian) (hi : (s.slot m).state ≠ .active) : checkLoadComponent custodian ps s = .error .noSuch := by
  rw [← unwrapFits_iff] at hf
  simp only [checkLoadComponent, hs, generalSlotOf_eq hn h7, ok_bind, ha, decide_true, need_true, slotOf_eq hm, hf, hi,
    decide_false, need_false, error_bind]

theorem checkLoadComponent_passes {m : SlotNo} (ha : (s.slot n).state = .assembling) (hm : (byteAt ps 1).toNat = m.val)
    (hf : unwrapFits s n m custodian) (hi : (s.slot m).state = .active) : checkLoadComponent custodian ps s = .ok (n, m) := by
  rw [← unwrapFits_iff] at hf
  simp only [checkLoadComponent, hs, generalSlotOf_eq hn h7, ok_bind, ha, decide_true, need_true, slotOf_eq hm, hf, hi, pure_ok]

end

/-- LOAD COMPONENT once its checks have passed: the ceiling, the custodian, and then the wait (R12 steps 5 and 6). -/
theorem takeLoadComponent_passed {a : OrderArgs} {s : State} {n m : SlotNo}
    (h : checkLoadComponent a.custodian a.params s = .ok (n, m)) :
    takeLoadComponent a s =
      if 7 ≤ m.val ∧ (s.slot m).underCeiling = false then .answered .notPermitted [] (offerSpent m s)
      else if a.custodian ∈ (s.slot n).components.getD [] then .answered .sameCustodian [] s
      else
        .held
          { kind := .component n a.custodian (s.slot n).nextCompletes,
            stage := .unwrap m ((s.slot m).key.getD 0) (blockOfBytes (sliceBytes a.params 2 16)),
            zeroised := false } s := by
  simp only [takeLoadComponent, h, checked_ok]; rfl

/-! ### LOAD WRAPPED KEY -/

/-- A byte is a class's code, or no class at all (12.2). -/
theorem classOf_cases (b : Byte) : classOf b = .error .range ∨ ∃ c : KeyClass, b = c.code := by
  by_cases h : b = 0 ∨ b = 1 ∨ b = 2 ∨ b = 3 ∨ b = 4 ∨ b = 5
  · right
    rcases h with h | h | h | h | h | h
    exacts [⟨.mgmt, h⟩, ⟨.custodian, h⟩, ⟨.importing, h⟩, ⟨.prep, h⟩, ⟨.master, h⟩, ⟨.line, h⟩]
  · left
    simp only [not_or] at h
    obtain ⟨h0, h1, h2, h3, h4, h5⟩ := h
    simp only [classOf, keyClassOf, h0, h1, h2, h3, h4, h5, if_false]

section
variable {ps : Bytes} {s : State} {n : SlotNo} (hs : s.screen true = .ok ()) (hn : (byteAt ps 0).toNat = n.val) (h7 : 7 ≤ n.val)
include hs hn h7

/-- A class byte other than those of IMPORT, PREP and LINE is refused RANGE (R15 step 2). -/
theorem checkLoadWrapped_class (h2 : byteAt ps 1 ≠ 0x02) (h3 : byteAt ps 1 ≠ 0x03) (h5 : byteAt ps 1 ≠ 0x05) :
    checkLoadWrapped ps s = .error .range := by
  rcases classOf_cases (byteAt ps 1) with he | ⟨c, hc⟩
  · simp only [checkLoadWrapped, hs, generalSlotOf_eq hn h7, he, ok_bind, error_bind]
  · have other : wrappedClass c = false := by
      cases c with
      | importing => exact absurd hc h2
      | prep => exact absurd hc h3
      | line => exact absurd hc h5
      | mgmt | custodian | master => rfl
    simp only [checkLoadWrapped, hs, generalSlotOf_eq hn h7, hc, classOf_code, other, ok_bind, need_false, error_bind]

/-- The checks of LOAD WRAPPED KEY once its slot and class are read, in their order (R15 steps 3 to 6). -/
theorem checkLoadWrapped_of_operands {c : KeyClass} (hc : byteAt ps 1 = c.code) (hw : c = .importing ∨ c = .prep ∨ c = .line) :
    checkLoadWrapped ps s =
      (do
        need (!(s.slot n).lock) .locked
        need (decide ((s.slot n).state = .empty)) .exists
        let u ← slotOf (byteAt ps 2)
        need (decide (7 ≤ u.val) && decide ((s.slot u).cls = some .importing)) .range
        need (decide ((s.slot u).state = .active)) .noSuch
        pure (n, c, u)) := by
  have wrapped : wrappedClass c = true := by rcases hw with rfl | rfl | rfl <;> rfl
  simp only [checkLoadWrapped, hs, generalSlotOf_eq hn h7, hc, classOf_code, wrapped, need_true, ok_bind]

end

/-- LOAD WRAPPED KEY once its checks have passed: the ceiling, and then the wait (R15 step 7). -/
theorem takeLoadWrapped_passed {a : OrderArgs} {s : State} {n m : SlotNo} {c : KeyClass}
    (h : checkLoadWrapped a.params s = .ok (n, c, m)) :
    takeLoadWrapped a s =
      if (s.slot m).underCeiling = false then .answered .notPermitted [] (offerSpent m s)
      else
        .held
          { kind := .whole n c (checkOfBytes (sliceBytes a.params 19 3)) (numAt a.params 22 4) (wordAt a.params 26),
            stage := .unwrap m ((s.slot m).key.getD 0) (blockOfBytes (sliceBytes a.params 3 16)),
            zeroised := false } s := by
  simp only [takeLoadWrapped, h, checked_ok]

/-- Settles O30: for each of the two orders its checks in order, then the wait for the unwrap step. -/
theorem loadsPresentTheirUnwrap : Obligations.LoadsPresentTheirUnwrap := by
  constructor
  · intro s h acc h1 h2 h3 a b c custodian refusedWith
    have screened : a.screen true = .ok () := by rw [acceptedState_screen]; exact screen_loading h1 h2 h3
    have slot : ∀ n, a.slot n = s.slot n := acceptedState_slot h s
    have refuses : ∀ r, checkLoadComponent custodian h.params a = .error r → refusedWith r := fun r e =>
      accepted_refused rfl (by decide) acc (by simp only [loadComponentRule, knownOrder, takeLoadComponent]; rw [e]; rfl)
    refine ⟨fun hb => refuses _ ?_, fun hb => refuses _ ?_,
      fun n hn h7 => ⟨fun ha => refuses _ ?_, fun ha => ⟨fun hc => refuses _ ?_, fun m hm => ?_⟩⟩⟩
    · simp only [checkLoadComponent, screened, generalSlotOf_high hb, ok_bind, error_bind]
    · simp only [checkLoadComponent, screened, generalSlotOf_low hb, ok_bind, error_bind]
    · exact checkLoadComponent_not_assembling screened hn h7 (by rw [slot]; exact ha)
    · exact checkLoadComponent_no_unwrap screened hn h7 (by rw [slot]; exact ha) hc
    · intro fitting spent given
      have assembling : (a.slot n).state = .assembling := by rw [slot]; exact ha
      have fits : unwrapFits a n m custodian ↔ fitting := by simp only [unwrapFits, slot, fitting]
      have atCeiling : (7 ≤ m.val ∧ (s.slot m).underCeiling = false) ↔ spent := by rw [underCeiling_false_iff]
      have passed (hf : fitting) (hi : (s.slot m).state = .active) := takeLoadComponent_passed
        (a := { number := h.number, custodian := s.order.gate.custodian, params := h.params })
        (checkLoadComponent_passes screened hn h7 assembling hm (fits.2 hf) (by rw [slot]; exact hi))
      simp only [slot n, slot m] at passed
      refine ⟨fun hf => refuses _ ?_, fun hf hi => refuses _ ?_, fun hf hi hsp => ?_, fun hf hi hsp hg => ?_,
        fun hf hi hsp hg hcore => ?_⟩
      · exact checkLoadComponent_misfit screened hn h7 assembling hm (fits.not.2 hf)
      · exact checkLoadComponent_inactive screened hn h7 assembling hm (fits.2 hf) (by rw [slot]; exact hi)
      · exact accepted_spent rfl (by decide) acc ((passed hf hi).trans (if_pos (atCeiling.2 hsp)))
      · exact accepted_refused rfl (by decide) acc ((passed hf hi).trans ((if_neg (atCeiling.not.2 hsp)).trans (if_pos hg)))
      · exact held_unwrap rfl acc hcore hi ((passed hf hi).trans ((if_neg (atCeiling.not.2 hsp)).trans (if_neg hg)))
  · intro s h acc h1 h2 h3 a b d refusedWith
    have screened : a.screen true = .ok () := by rw [acceptedState_screen]; exact screen_loading h1 h2 h3
    have slot : ∀ n, a.slot n = s.slot n := acceptedState_slot h s
    have refuses : ∀ r, checkLoadWrapped h.params a = .error r → refusedWith r := fun r e =>
      accepted_refused rfl (by decide) acc (by simp only [loadWrappedKeyRule, knownOrder, takeLoadWrapped]; rw [e]; rfl)
    refine ⟨fun hb => refuses _ ?_, fun hb => refuses _ ?_,
      fun n hn h7 => ⟨fun k2 k3 k5 => refuses _ (checkLoadWrapped_class screened hn h7 k2 k3 k5), fun c hc hw => ?_⟩⟩
    · simp only [checkLoadWrapped, screened, generalSlotOf_high hb, ok_bind, error_bind]
    · simp only [checkLoadWrapped, screened, generalSlotOf_low hb, ok_bind, error_bind]
    · have checks := checkLoadWrapped_of_operands screened hn h7 hc hw
      simp only [slot] at checks
      refine ⟨fun hl => refuses _ ?_, fun hl he => refuses _ ?_, fun hl he => ?_⟩
      · simp only [checks, hl, Bool.not_true, need_false, error_bind]
      · simp only [checks, hl, he, Bool.not_false, decide_false, need_true, need_false, ok_bind, error_bind]
      · simp only [hl, he, Bool.not_false, decide_true, need_true, ok_bind] at checks
        refine ⟨fun hd => refuses _ ?_, fun m hm => ?_⟩
        · simp only [checks, slotOf_high hd, error_bind]
        · intro fitting spent
          have fits : (decide (7 ≤ m.val) && decide ((s.slot m).cls = some .importing)) = true ↔ fitting := by simp [fitting]
          simp only [slotOf_eq hm, ok_bind] at checks
          refine ⟨fun hf => refuses _ ?_, fun hf hi => refuses _ ?_, fun hf hi hsp => ?_, fun hf hi hsp hcore => ?_⟩
          · simp only [checks, Bool.not_eq_true _ ▸ fits.not.2 hf, need_false, error_bind]
          · simp only [checks, fits.2 hf, hi, decide_false, need_true, need_false, ok_bind, error_bind]
          all_goals
            have passed := takeLoadWrapped_passed
              (a := { number := h.number, custodian := s.order.gate.custodian, params := h.params }) (s := a) (n := n) (c := c) (m := m)
              (by simp only [checks, fits.2 hf, hi, decide_true, need_true, ok_bind, pure_ok])
            simp only [slot, underCeiling_false_iff] at passed
          · exact accepted_spent rfl (by decide) acc (passed.trans (if_pos hsp))
          · have held := held_unwrap (i := .loadWrappedKey) rfl acc hcore hi (passed.trans (if_neg hsp))
            simp only [hf.1, if_true, true_implies] at held
            obtain ⟨t, run, presents, begun, waits⟩ := held
            exact ⟨t, run, presents, begun, fun w => waits (.inl w)⟩

end Sys2Proof.Machine
end

section
/-! Proofs. The end of a load (R12, R13, R15, R42), in time, zeroised and late. -/

namespace Sys2Proof.Machine

/-! ### One slot written twice -/

theorem setSlot_setSlot (s : State) (n : SlotNo) (j k : Slot) : (s.setSlot n j).setSlot n k = s.setSlot n k := by
  simp only [State.setSlot, Vector.set_set]

/-! ### The lapse that a load held back -/

/-- No lapse waits for a slot that is not ASSEMBLING (R14, R25). -/
theorem lateLapse_of_not_assembling {l : Load} {s : State}
    (h : ∀ m c last, l.kind = .component m c last → (s.slot m).state ≠ .assembling) : lateLapse l s = s := by
  unfold lateLapse
  split
  · next m c last hk => exact if_neg fun k => h m c last hk k.1
  · rfl

theorem deadline_not_reached {d : Option Word} {now : Word} (h : ∀ x, d = some x → deadlineReached now x = false) :
    (d.map (deadlineReached now)).getD false = false := by
  cases d with
  | none => rfl
  | some x => exact h x rfl

/-- Nor for one whose deadline is not reached, while the unit is not DORMANT (R14, R25). -/
theorem lateLapse_in_time {l : Load} {s : State} {n : SlotNo} {c : Nat} {last : Bool} (hk : l.kind = .component n c last)
    (hc : s.store.custody ≠ .dormant) (hd : ∀ d, (s.slot n).deadline = some d → deadlineReached s.time.millis d = false) :
    lateLapse l s = s := by
  unfold lateLapse
  rw [hk]
  exact if_neg fun h => h.2.elim hc (by rw [deadline_not_reached hd]; decide)

/-- The lapse reaches an ASSEMBLING slot whose deadline has passed, or that the entry into DORMANT concerned (R42). -/
theorem lateLapse_due {l : Load} {s : State} {n : SlotNo} {c : Nat} {last : Bool} (hk : l.kind = .component n c last)
    (ha : (s.slot n).state = .assembling)
    (hd : s.store.custody = .dormant ∨ ∃ d, (s.slot n).deadline = some d ∧ deadlineReached s.time.millis d = true) :
    lateLapse l s = lapseAssembly n s := by
  unfold lateLapse
  rw [hk]
  refine if_pos ⟨ha, hd.imp id ?_⟩
  rintro ⟨d, hd, hr⟩
  rw [hd]; exact hr

/-! ### The effects of a load -/

/-- A component joins its assembly (R12). -/
theorem endLoad_component {l : Load} {v : Block} {s : State} {n m : SlotNo} {c : Nat} {last : Bool} {key w : Block}
    (hz : l.zeroised = false) (hk : l.kind = .component n c last) (hst : l.stage = .unwrap m key w) :
    endLoad l v s = (.done, s.setSlot n ((s.slot n).addComponent c v)) := by
  simp [endLoad, hz, hk, hst]

/-- The last component's check value agrees: the key is assembled (R13). -/
theorem endLoad_assembled {l : Load} {v clear : Block} {s : State} {n : SlotNo} {c : Nat} {last : Bool} (hz : l.zeroised = false)
    (hk : l.kind = .component n c last) (hst : l.stage = .check clear) (he : (s.slot n).expected = some (checkOfBlock v)) :
    endLoad l v s = (.done, activate n ((s.slot n).assembled clear (checkOfBlock v)) s) := by
  simp [endLoad, hz, hk, hst, he]

/-- It does not agree: the assembling slot becomes EMPTY (R13). -/
theorem endLoad_misassembled {l : Load} {v clear : Block} {s : State} {n : SlotNo} {c : Nat} {last : Bool} (hz : l.zeroised = false)
    (hk : l.kind = .component n c last) (hst : l.stage = .check clear) (he : (s.slot n).expected ≠ some (checkOfBlock v)) :
    endLoad l v s = (.checkMismatch, s.emptySlot n) := by
  simp [endLoad, hz, hk, hst, he]

/-- A key loaded whole whose check value agrees or not (R15). -/
theorem endLoad_whole {l : Load} {v clear : Block} {s : State} {n : SlotNo} {c : KeyClass} {check : Check} {ceiling : Nat}
    {label : Word} (hz : l.zeroised = false) (hk : l.kind = .whole n c check ceiling label) (hst : l.stage = .check clear) :
    endLoad l v s =
      if checkOfBlock v = check then (.done, activate n (wholeSlot (s.slot n) c clear check ceiling label) s)
      else (.checkMismatch, s) := by
  simp [endLoad, hz, hk, hst]

/-- A key's coming into a slot changes the slot and offers notices (R13, R15, R101). -/
theorem activate_eq {s : State} {n : SlotNo} {k : Slot} {check : Check} (h : k.check = some check) :
    activate n k s =
      lineNotices s
        (offer .key 0x01
          ([byteOf n.val, (k.cls.map KeyClass.code).getD 0] ++ be24 check.toNat ++
            optionalField 4 (k.label.map fun w => be32 w.toNat)) (s.setSlot n k)) := by
  simp only [activate, offerActive, offerKey, setSlot_slot_self, h, Option.getD_some]
  rfl

theorem activate_slot (s : State) (n : SlotNo) (k : Slot) : (activate n k s).slot n = k := by
  unfold activate offerActive offerKey
  rw [State.slot, lineNotices_store, offer_store]
  exact setSlot_slot_self s n k

theorem activate_core (s : State) (n : SlotNo) (k : Slot) : (activate n k s).core = s.core := by
  simp [activate, offerActive, offerKey]

theorem endLoad_core (l : Load) (v : Block) (s : State) : (endLoad l v s).2.core = s.core := by
  unfold endLoad
  split
  · rfl
  · split
    · rfl
    · split
      exacts [activate_core _ _ _, rfl]
    · split
      exacts [activate_core _ _ _, rfl]
    · rfl

theorem lateLapse_core (l : Load) (s : State) : (lateLapse l s).core = s.core := by
  unfold lateLapse lapseAssembly offerKey
  split
  · split
    · simp
    · rfl
  · rfl

/-- The event of a load's end: its effects, the lapse held back, the engine's takes and the answer (R42, R91, R151). -/
theorem execLoadUnwrapEnd_answers {s x y : State} {h : OrderInHand} {l : Load} {r : OrderResult} (hh : s.order.hand = some h)
    (hl : h.handling = .loading l) (hc : s.coreServes .load = true) (hq : s.quietQueue) (he : l.ends = true)
    (hx : endLoad l s.coreResult s.endStep = (r, x)) (hy : lateLapse l x = y) :
    ∃ t, exec .loadUnwrapEnd s = .next t ∧ AnswersUntagged h r [] (engineTake y) t := by
  refine ⟨settleCore (buildAnswer h r [] false (engineTake y)), ?_, settle_buildAnswer ?_⟩
  · show execLoadUnwrapEnd s = _
    unfold execLoadUnwrapEnd
    simp only [hh, hl, hc, he, hx, hy, Bool.and_self, if_true]
  · refine (engineTake_apart y).quietQueue (quietQueue_of_queue hq ?_)
    have ended := endLoad_core l s.coreResult s.endStep
    rw [hx] at ended
    rw [← hy, lateLapse_core, ended, endStep_queue]

/-- The end of a load that leaves its slot in another state than ASSEMBLING, whatever its deadline (R13, R42). -/
theorem execLoadUnwrapEnd_settled {s x : State} {h : OrderInHand} {l : Load} {r : OrderResult} {n : SlotNo} {c : Nat} {last : Bool}
    (hh : s.order.hand = some h) (hl : h.handling = .loading l) (hc : s.coreServes .load = true) (hq : s.quietQueue)
    (he : l.ends = true) (hk : l.kind = .component n c last) (hx : endLoad l s.coreResult s.endStep = (r, x))
    (ha : (x.slot n).state ≠ .assembling) :
    ∃ t, exec .loadUnwrapEnd s = .next t ∧ AnswersUntagged h r [] (engineTake x) t := by
  refine execLoadUnwrapEnd_answers hh hl hc hq he hx (lateLapse_of_not_assembling fun m c' last' e => ?_)
  rw [hk] at e
  cases e
  exact ha

theorem ends_of_check {l : Load} {clear : Block} (h : l.stage = .check clear) : l.ends = true := by
  simp [Load.ends, h]

theorem ends_of_component {l : Load} {n m : SlotNo} {c : Nat} {key w : Block} (hk : l.kind = .component n c false)
    (hst : l.stage = .unwrap m key w) : l.ends = true := by
  simp [Load.ends, hk, hst]

/-- The end of an assembly whose last component is in, its deadline reached or not: ACTIVE with its notice, or EMPTY (R13, R42). -/
theorem assembly_ends {s : State} {h : OrderInHand} {l : Load} {n : SlotNo} {c : Nat} {last : Bool} {clear : Block}
    (hh : s.order.hand = some h) (hl : h.handling = .loading l) (hc : s.coreServes .load = true) (hq : s.quietQueue)
    (hz : l.zeroised = false) (hk : l.kind = .component n c last) (hst : l.stage = .check clear) :
    let check := checkOfBlock s.coreResult
    let k := (s.slot n).assembled clear check
    ((s.slot n).expected = some check →
      ∃ t, exec .loadUnwrapEnd s = .next t ∧
        AnswersUntagged h .done []
          (engineTake
            (lineNotices s.endStep
              (offer .key 0x01
                ([byteOf n.val, (k.cls.map KeyClass.code).getD 0] ++ be24 check.toNat ++
                  optionalField 4 (k.label.map fun w => be32 w.toNat)) (s.endStep.setSlot n k)))) t) ∧
    ((s.slot n).expected ≠ some check →
      ∃ t, exec .loadUnwrapEnd s = .next t ∧
        AnswersUntagged h .checkMismatch [] (engineTake (s.endStep.setSlot n (Slot.blank (s.slot n).lock))) t) := by
  intro check k
  refine ⟨fun he => ?_, fun he => ?_⟩
  · rw [← activate_eq (s := s.endStep) (show k.check = some check from rfl)]
    refine execLoadUnwrapEnd_settled hh hl hc hq (ends_of_check hst) hk (endLoad_assembled hz hk hst he) ?_
    rw [activate_slot]
    exact fun e => (by cases e)
  · refine execLoadUnwrapEnd_settled hh hl hc hq (ends_of_check hst) hk (endLoad_misassembled hz hk hst he) ?_
    rw [setSlot_slot_self]
    exact fun e => (by cases e)

/-- Settles O31: each way a load may end. -/
theorem loadEnds : Obligations.LoadEnds := by
  constructor
  · intro s h l n hh hl hc hq hcu hd v u check ends activates
    refine ⟨fun hz hna hend => ?_, fun c slot key w hz hk hst => ?_, fun c last clear hz hk hst => ?_,
      fun c stated ceiling label clear hz hk hst => ?_⟩
    · have le : l.ends = true := by
        rcases hend with ⟨clear, hst⟩ | ⟨m, c, slot, key, w, hk, hst⟩
        exacts [ends_of_check hst, ends_of_component hk hst]
      exact execLoadUnwrapEnd_answers hh hl hc hq le (endLoad_zeroised hz _ _) (lateLapse_of_not_assembling hna)
    · refine execLoadUnwrapEnd_answers hh hl hc hq (ends_of_component hk hst) (endLoad_component hz hk hst) ?_
      refine lateLapse_in_time hk hcu fun d he => hd d ?_
      rw [setSlot_slot_self] at he
      exact he
    · exact assembly_ends hh hl hc hq hz hk hst
    · have whole := endLoad_whole (v := v) (s := u) hz hk hst
      have settled : ∀ x : State, lateLapse l x = x := fun x =>
        lateLapse_of_not_assembling fun m c last e => by rw [hk] at e; cases e
      refine ⟨fun he => ?_, fun he => ?_⟩
      · rw [if_pos he] at whole
        have slot : wholeSlot (u.slot n) c clear stated ceiling label =
            { state := .active, cls := some c, key := some clear, check := some check, required := none, components := none,
              accumulator := none, expected := none, deadline := none,
              label := if c = .prep ∨ c = .master then some label else none, uses := .zero, ceiling := ceiling,
              lock := (s.slot n).lock } := by
          simp only [wholeSlot, Slot.blank, labelled_iff, show check = stated from he]; rfl
        rw [slot] at whole
        have ended := execLoadUnwrapEnd_answers hh hl hc hq (ends_of_check hst) whole (settled _)
        rw [activate_eq (check := check) rfl] at ended
        exact ended
      · rw [if_neg he] at whole
        exact execLoadUnwrapEnd_answers hh hl hc hq (ends_of_check hst) whole (settled _)
  · intro s h n c last stage hh hl hc hq ha hlate u check ends emptied
    refine ⟨fun slot key w hst hlast => ?_, fun clear hst => ?_⟩
    · subst hst hlast
      refine execLoadUnwrapEnd_answers hh hl hc hq rfl (endLoad_component rfl rfl rfl) ?_
      have due := lateLapse_due (l := { kind := .component n c false, stage := .unwrap slot key w, zeroised := false }) (n := n)
        (s := u.setSlot n ((u.slot n).addComponent c s.coreResult)) rfl
        (by rw [setSlot_slot_self]; exact ha)
        (hlate.imp id fun ⟨d, hd, hr⟩ => ⟨d, by rw [setSlot_slot_self]; exact hd, decide_eq_true hr⟩)
      refine due.trans ?_
      unfold lapseAssembly State.emptySlot offerKey
      rw [setSlot_setSlot, setSlot_slot_self]
      simp only [Slot.loaded, Slot.addComponent, Option.getD_some, List.length_append, List.length_singleton]
      rfl
    · exact assembly_ends hh hl hc hq rfl rfl hst

end Sys2Proof.Machine
end

section
/-! Proofs. The orders on one slot (R16 to R18, R22) and WAKE (R26). -/

namespace Sys2Proof.Machine

/-! ### Slots named by runs and lines -/

/-- What keeps a slot from being erased (R18 step 3). -/
theorem slotInUse_iff (s : State) (n : SlotNo) :
    s.slotInUse n = true ↔
      (∃ r ∈ s.runs.table, r.state ≠ .closed ∧ (r.master = n ∨ r.prep = some n)) ∨ ∃ l, (s.line l).keySlot = some n := by
  have byLine : (∃ x ∈ s.dispatch.lines.toList, x.keySlot = some n) ↔ ∃ l, (s.line l).keySlot = some n := by
    constructor
    · rintro ⟨x, hx, hn⟩
      obtain ⟨i, hi, rfl⟩ := Vector.mem_iff_getElem.1 (Vector.mem_toList_iff.1 hx)
      exact ⟨⟨i, hi⟩, hn⟩
    · rintro ⟨l, hl⟩
      exact ⟨s.line l, Vector.mem_toList_iff.2 (Vector.getElem_mem l.isLt), hl⟩
  simp only [State.slotInUse, Bool.or_eq_true, List.any_eq_true, Run.names, Bool.and_eq_true, decide_eq_true_eq, byLine]

/-- The report of a slot that no run in use names changes nothing (R46). -/
theorem reportUnusable_unnamed {n : SlotNo} {s : State}
    (h : ∀ r ∈ s.runs.table, r.state ≠ .closed → r.master ≠ n ∧ r.prep ≠ some n) : s.reportUnusable n = s := by
  have table : (s.reportUnusable n).runs.table = s.runs.table := by
    rw [reportUnusable_eq]
    refine (List.map_congr_left fun r hr => if_neg ?_).trans (List.map_id _)
    rintro ⟨named, reached⟩
    have used : r.state ≠ .closed := by rcases reached with e | e | e <;> rw [e] <;> decide
    obtain ⟨master, prep⟩ := h r hr used
    exact named.elim master prep
  rw [reportUnusable_eq] at table ⊢
  dsimp only at table
  rw [table]

/-- A slot that nothing names is erased and its scrub pass begins (R18). -/
theorem eraseSlot_unnamed {n : SlotNo} {s : State}
    (h : ∀ r ∈ s.runs.table, r.state ≠ .closed → r.master ≠ n ∧ r.prep ≠ some n) :
    eraseSlot n s =
      { s with store := { s.store with slots := s.store.slots.set n.val (Slot.blank false), scrub := some (.erase n) } } := by
  have same : (s.setSlot n (Slot.blank false)).reportUnusable n = s.setSlot n (Slot.blank false) := reportUnusable_unnamed h
  unfold eraseSlot
  rw [same]
  rfl

/-! ### The checks of the orders on one slot, past the screen -/

section
variable {s : State} {ps : Bytes} {n : SlotNo}

theorem checkEraseSlot_screened (hs : s.screen false = .ok ()) (hn : (byteAt ps 0).toNat = n.val) (h7 : 7 ≤ n.val) :
    checkEraseSlot ps s =
      (do
        need (!(s.slot n).lock) .locked
        need (decide ((s.slot n).state ≠ .empty)) .noSuch
        need (!s.slotInUse n) .inUse
        pure n) := by
  simp only [checkEraseSlot, hs, generalSlotOf_eq hn h7, ok_bind]

theorem checkSetCeiling_screened (hs : s.screen false = .ok ()) (hn : (byteAt ps 0).toNat = n.val) (h7 : 7 ≤ n.val) :
    checkSetCeiling ps s =
      (do
        need (decide ((s.slot n).state = .active)) .notPermitted
        need (decide (numAt ps 1 4 = 0) || decide ((s.slot n).uses.value < numAt ps 1 4)) .range
        pure n) := by
  simp only [checkSetCeiling, hs, generalSlotOf_eq hn h7, ok_bind]

theorem takeLockSlot_screened {a : OrderArgs} (hs : s.screen false = .ok ()) (hn : (byteAt a.params 0).toNat = n.val) (h7 : 7 ≤ n.val) :
    takeLockSlot a s = .answered .done [] (s.setSlot n { s.slot n with lock := true }) := by
  simp only [takeLockSlot, hs, generalSlotOf_eq hn h7, ok_bind, checked_ok]

theorem takeUnlockSlot_screened {a : OrderArgs} (hs : s.screen false = .ok ()) (hn : (byteAt a.params 0).toNat = n.val)
    (h7 : 7 ≤ n.val) : takeUnlockSlot a s = .answered .done [] (s.setSlot n { s.slot n with lock := false }) := by
  simp only [takeUnlockSlot, hs, generalSlotOf_eq hn h7, ok_bind, checked_ok]

theorem takeRetireSlot_screened {a : OrderArgs} (hs : s.screen false = .ok ()) (hn : (byteAt a.params 0).toNat = n.val)
    (h7 : 7 ≤ n.val) :
    takeRetireSlot a s =
      checked
        (do
          need (!(s.slot n).lock) .locked
          need (decide ((s.slot n).state = .active)) .notPermitted
          pure n)
        s fun n => .answered .done [] (lineNotices s ((s.setSlot n { s.slot n with state := .retired }).reportUnusable n)) := by
  simp only [takeRetireSlot, hs, generalSlotOf_eq hn h7, ok_bind]

theorem takeWake_screened {a : OrderArgs} (hs : s.screen false = .ok ()) :
    takeWake a s =
      checked (need (decide (s.store.custody = .dormant)) .notPermitted) s fun _ => .answered .started [] (beginVerify .wake s) := by
  simp only [takeWake, hs, ok_bind]

end

theorem visited_iff (k : Slot) : k.visited = true ↔ k.state = .active ∨ k.state = .retired := by simp [Slot.visited]

theorem not_visited_iff (k : Slot) : k.visited = false ↔ k.state ≠ .active ∧ k.state ≠ .retired := by simp [Slot.visited]

/-- A verify begins at the first ACTIVE or RETIRED slot (R24). -/
theorem beginVerify_first {s : State} {n : SlotNo} (cause : VerifyCause) (hv : (s.slot n).state = .active ∨ (s.slot n).state = .retired)
    (hm : ∀ m : SlotNo, m.val < n.val → (s.slot m).state ≠ .active ∧ (s.slot m).state ≠ .retired) :
    beginVerify cause s =
      { s with store := { s.store with verify := some { cause := cause, slot := n, damaged := 0 } } } := by
  rw [beginVerify, visitFrom, nextVisit_first ((visited_iff _).2 hv) fun m h => (not_visited_iff _).2 (hm m h)]

/-- Settles O32: each order's checks in order, and its effect on its slot; WAKE by the unit's custody state. -/
theorem slotOrdersChangeTheirSlot : Obligations.SlotOrdersChangeTheirSlot := by
  constructor
  · intro s h n h1 h2 hn h7 u k answers
    have hs : u.screen false = .ok () := by rw [acceptedState_screen]; exact screen_clear h1 h2
    have slot : u.slot n = k := acceptedState_slot h s n
    refine ⟨fun a => ?_, fun a => ?_, fun a => ?_, fun a => ?_, fun a => ?_⟩
    · rw [← slot]
      exact accepted_row rfl a (by decide) (quietQueue_of_queue (acceptedState_quiet a) rfl) (takeLockSlot_screened hs hn h7)
    · rw [← slot]
      exact accepted_row rfl a (by decide) (quietQueue_of_queue (acceptedState_quiet a) rfl) (takeUnlockSlot_screened hs hn h7)
    · have taken := takeRetireSlot_screened (a := { number := h.number, custodian := s.order.gate.custodian, params := h.params })
        hs hn h7
      rw [slot] at taken
      refine ⟨fun hl => accepted_refused rfl (by decide) a (taken.trans ?_),
        fun hl hk => accepted_refused rfl (by decide) a (taken.trans ?_),
        fun hl hk => accepted_row rfl a (by decide) (quietQueue_of_queue (acceptedState_quiet a) ?_) (taken.trans ?_)⟩
      · simp only [hl, Bool.not_true, need_false, error_bind, checked_error, u]
      · simp only [hl, hk, decide_false, Bool.not_false, need_true, need_false, ok_bind, error_bind, checked_error, u]
      · simp [u]
      · simp only [hl, hk, decide_true, Bool.not_false, need_true, ok_bind, pure_ok, checked_ok, slot]
    · have checks := checkEraseSlot_screened hs hn h7
      rw [slot] at checks
      have taken : ∀ p, checkEraseSlot h.params u = p →
          eraseSlotRule.take { number := h.number, custodian := s.order.gate.custodian, params := h.params } u =
            checked p u fun n => .answered .started [byteOf n.val] (eraseSlot n u) := by
        rintro _ rfl; rfl
      have refuses : ∀ r, checkEraseSlot h.params u = .error r → answers .eraseSlot r [] u := fun r e =>
        accepted_refused rfl (by decide) a (taken _ e)
      have used : u.slotInUse n = true ↔
          (∃ r ∈ s.runs.table, r.state ≠ .closed ∧ (r.master = n ∨ r.prep = some n)) ∨ ∃ l, (s.line l).keySlot = some n := by
        rw [slotInUse_iff]
        simp [u, State.line]
      refine ⟨fun hl => refuses _ ?_, fun hl hk => refuses _ ?_, fun hl hk => ⟨fun hu => refuses _ ?_, fun hr hline => ?_⟩⟩
      · simp only [checks, hl, Bool.not_true, need_false, error_bind]
      · simp only [checks, hl, hk, Bool.not_false, need_true, ok_bind, ne_eq, not_true, decide_false, need_false, error_bind]
      · simp only [checks, hl, used.2 hu, hk, Bool.not_false, Bool.not_true, need_true, ok_bind, ne_eq, not_false_iff, decide_true,
          need_false, error_bind]
      · have unused : u.slotInUse n = false := by
          refine Bool.eq_false_iff.2 fun e => ?_
          rcases used.1 e with ⟨r, hm, hc, hnamed⟩ | ⟨l, hl⟩
          · exact hnamed.elim (hr r hm hc).1 (hr r hm hc).2
          · exact hline l hl
        have passes : checkEraseSlot h.params u = .ok n := by
          simp only [checks, hl, unused, hk, Bool.not_false, need_true, ok_bind, ne_eq, not_false_iff, decide_true, pure_ok]
        have erased : eraseSlot n u = _ := eraseSlot_unnamed (by simpa [u] using hr)
        refine accepted_row rfl a (by decide) (quietQueue_of_queue (acceptedState_quiet a) rfl) ?_
        rw [taken _ passes, checked_ok, erased]
    · have checks := checkSetCeiling_screened hs hn h7
      rw [slot] at checks
      have taken : ∀ p, checkSetCeiling h.params u = p →
          setCeilingRule.take { number := h.number, custodian := s.order.gate.custodian, params := h.params } u =
            checked p u fun n =>
              .answered .done [] (engineTake (lineNotices u (u.setSlot n { u.slot n with ceiling := numAt h.params 1 4 }))) := by
        rintro _ rfl; rfl
      have refuses : ∀ r, checkSetCeiling h.params u = .error r → answers .setCeiling r [] u := fun r e =>
        accepted_refused rfl (by decide) a (taken _ e)
      refine ⟨fun hk => refuses _ ?_, fun hk h0 hlow => refuses _ ?_, fun hk hok => ?_⟩
      · simp only [checks, hk, decide_false, need_false, error_bind]
      · have below : ¬k.uses.value < numAt h.params 1 4 := by omega
        simp only [checks, hk, h0, below, decide_true, decide_false, need_true, ok_bind, Bool.or_self, need_false, error_bind]
      · have bound : (decide (numAt h.params 1 4 = 0) || decide (k.uses.value < numAt h.params 1 4)) = true := by simpa using hok
        have passes : checkSetCeiling h.params u = .ok n := by
          simp only [checks, hk, bound, decide_true, need_true, ok_bind, pure_ok]
        refine accepted_row rfl a (by decide) ((engineTake_apart _).quietQueue (quietQueue_of_queue (acceptedState_quiet a) ?_)) ?_
        · simp [u]
        · rw [taken _ passes, checked_ok, slot]
  · intro s h a h1 h2 u
    have hs : u.screen false = .ok () := by rw [acceptedState_screen]; exact screen_clear h1 h2
    have taken := takeWake_screened (a := { number := h.number, custodian := s.order.gate.custodian, params := h.params }) hs
    rw [acceptedState_custody] at taken
    refine ⟨fun hc => accepted_refused rfl (by decide) a (taken.trans ?_), fun n hc hv hm => ?_⟩
    · rw [hc]; rfl
    · have begun : beginVerify .wake u = _ := beginVerify_first .wake (by rw [acceptedState_slot]; exact hv)
        fun m h => by rw [acceptedState_slot]; exact hm m h
      refine accepted_row rfl a (by decide) (quietQueue_of_queue (acceptedState_quiet a) rfl) (taken.trans ?_)
      rw [hc, decide_eq_true rfl, need_true, checked_ok, begun]

end Sys2Proof.Machine
end

section
/-! Proofs. RESUME and ACK TAMPER (R29, R159, R166). -/

namespace Sys2Proof.Machine

/-! ### The release of LATCHED sensors -/

theorem releasable_iff (s : State) (i : SensorNo) :
    s.releasable i = true ↔ (s.sensor i).status = .latched ∧ (s.sensor i).active = false := by
  simp [State.releasable]

/-- `t` is `s` with each releasable sensor of the list released: IDLE, its cause gone; nothing else changed (R159). -/
structure Released (l : List SensorNo) (s t : State) : Prop where
  freed : ∀ i, i ∈ l → s.releasable i = true →
    t.sensor i = { s.sensor i with status := .idle, timer := none } ∧ t.store.suspend[i.val] = false
  kept : ∀ i, (i ∈ l → s.releasable i = false) → t.sensor i = s.sensor i ∧ t.store.suspend[i.val] = s.store.suspend[i.val]
  only : t = { s with
    tamper := { s.tamper with sensors := t.tamper.sensors }, store := { s.store with suspend := t.store.suspend } }

theorem releaseSensor_self (i : SensorNo) (s : State) :
    (releaseSensor i s).sensor i = { s.sensor i with status := .idle, timer := none } ∧
      (releaseSensor i s).store.suspend[i.val] = false := by
  simp [releaseSensor, State.setCause, State.setSensor, State.sensor]

theorem releaseSensor_other {i j : SensorNo} (h : j ≠ i) (s : State) :
    (releaseSensor i s).sensor j = s.sensor j ∧ (releaseSensor i s).store.suspend[j.val] = s.store.suspend[j.val] := by
  have apart : i.val ≠ j.val := fun e => h (Fin.ext e.symm)
  simp [releaseSensor, State.setCause, State.setSensor, State.sensor, apart]

theorem releasable_of_sensor {s t : State} {i : SensorNo} (h : t.sensor i = s.sensor i) : t.releasable i = s.releasable i := by
  simp [State.releasable, h]

/-- One sensor of a list, then the rest of them. -/
theorem Released.cons {i : SensorNo} {l : List SensorNo} {s t : State} (hi : i ∉ l)
    (h : Released l (if s.releasable i then releaseSensor i s else s) t) : Released (i :: l) s t := by
  have apart : ∀ j ∈ l, j ≠ i := fun j hj e => hi (e ▸ hj)
  by_cases hr : s.releasable i = true
  · rw [if_pos hr] at h
    obtain ⟨freed, kept, only⟩ := h
    have here := kept i fun hm => absurd hm hi
    refine ⟨fun j hj hf => ?_, fun j hj => ?_, ?_⟩
    · by_cases e : j = i
      · subst e
        exact ⟨here.1.trans (releaseSensor_self j s).1, here.2.trans (releaseSensor_self j s).2⟩
      · have other := releaseSensor_other e s
        have first := freed j (List.mem_of_ne_of_mem e hj) ((releasable_of_sensor other.1).trans hf)
        rwa [other.1] at first
    · have e : j ≠ i := fun e => by rw [e, hr] at hj; exact absurd (hj (List.mem_cons_self ..)) (by decide)
      have other := releaseSensor_other e s
      have first := kept j fun hm => (releasable_of_sensor other.1).trans (hj (List.mem_cons_of_mem _ hm))
      exact ⟨first.1.trans other.1, first.2.trans other.2⟩
    · rw [only]
      rfl
  · rw [if_neg hr] at h
    obtain ⟨freed, kept, only⟩ := h
    refine ⟨fun j hj hf => freed j ?_ hf, fun j hj => kept j fun hm => hj (List.mem_cons_of_mem _ hm), only⟩
    exact List.mem_of_ne_of_mem (fun e => hr (by rw [← e]; exact hf)) hj

theorem released_fold {l : List SensorNo} (hl : l.Nodup) (s : State) :
    Released l s (l.foldl (fun t i => if t.releasable i then releaseSensor i t else t) s) := by
  induction l generalizing s with
  | nil => exact ⟨fun _ hi => absurd hi List.not_mem_nil, fun _ _ => ⟨rfl, rfl⟩, rfl⟩
  | cons i l ih =>
    obtain ⟨hi, hl⟩ := List.nodup_cons.1 hl
    exact (ih hl _).cons hi

/-- The release reaches each of the six sensors. -/
theorem releaseLatched_released (s : State) : Released (List.finRange 6) s (releaseLatched s) :=
  released_fold (List.nodup_finRange 6) s

/-! ### A set of sensors in a byte -/

theorem bitByte_getLsbD : ∀ (a b c d e f : Bool) (i : Fin 6),
    (bitByte [a, b, c, d, e, f]).getLsbD i.val = [a, b, c, d, e, f].get i := by
  decide

theorem sensorSet_getLsbD (f : SensorNo → Bool) (i : SensorNo) : (sensorSet f).getLsbD i.val = f i := by
  refine (bitByte_getLsbD (f 0) (f 1) (f 2) (f 3) (f 4) (f 5) i).trans ?_
  fin_cases i <;> rfl

/-- A sensor is still LATCHED after the release when it was, and was not released (R159). -/
theorem Released.latched_iff {s t : State} (h : Released (List.finRange 6) s t) (i : SensorNo) :
    (t.sensor i).status = .latched ↔ (s.sensor i).status = .latched ∧ ¬s.releasable i = true := by
  by_cases hr : s.releasable i = true
  · rw [(h.freed i (List.mem_finRange i) hr).1]
    simp [hr]
  · rw [(h.kept i fun _ => by simpa using hr).1]
    simp [hr]

/-! ### RESUME and ACK TAMPER -/

/-- RESUME with a sensor to release, and with none (R159). -/
theorem resume_none {a : OrderArgs} {s : State} (h : ∀ i, ¬s.releasable i = true) : resumeRule.take a s = .answered .notPermitted [] s := by
  have none : (List.finRange 6).any s.releasable = false := by simpa using h
  simp only [resumeRule, knownOrder, takeResume, none, need_false, checked_error]

theorem resume_some {a : OrderArgs} {s : State} {i : SensorNo} (h : s.releasable i = true) :
    resumeRule.take a s =
      .answered .done [sensorSet s.releasable, sensorSet fun i => decide (((releaseLatched s).sensor i).status = .latched)]
        (engineTake (releaseLatched s)) := by
  have some : (List.finRange 6).any s.releasable = true := List.any_eq_true.2 ⟨i, List.mem_finRange i, h⟩
  simp only [resumeRule, knownOrder, takeResume, some, need_true, checked_ok]

section
variable {contact : Bool} {a : OrderArgs} {s : State}

theorem ackTamper_operational (hs : s.screen false = .ok ()) (hc : s.store.custody = .operational) :
    (ackTamperRule contact).take a s =
      .answered .done [byteOf s.tamper.record.length, byteOf s.tamper.overflow.value] (clearRecord s) := by
  have passes : (contact || decide (s.store.custody ≠ .zeroised)) = true := by simp [hc]
  have other : ¬s.store.custody = .zeroised := by simp [hc]
  simp only [ackTamperRule, knownOrder, takeAckTamper, hs, passes, need_true, ok_bind, checked_ok, if_neg other]

theorem ackTamper_zeroised (hs : s.screen false = .ok ()) (hc : s.store.custody = .zeroised) :
    (ackTamperRule true).take a s =
      .answered .done [byteOf s.tamper.record.length, byteOf s.tamper.overflow.value]
        (releaseLatched ((clearRecord s).setCustody .factory)) := by
  simp only [ackTamperRule, knownOrder, takeAckTamper, hs, Bool.true_or, need_true, ok_bind, checked_ok, if_pos hc]

theorem ackTamper_no_contact (hs : s.screen false = .ok ()) (hc : s.store.custody = .zeroised) :
    (ackTamperRule false).take a s = .answered .notPermitted [] s := by
  have fails : (false || decide (s.store.custody ≠ .zeroised)) = false := by simp [hc]
  simp only [ackTamperRule, knownOrder, takeAckTamper, hs, fails, need_false, ok_bind, checked_error]

end

theorem releaseLatched_core (s : State) : (releaseLatched s).core = s.core := by
  rw [(releaseLatched_released s).only]

@[simp] theorem acceptedState_store (h : OrderInHand) (s : State) :
    (acceptedState h s).store = { s.store with lastOrder := h.number } := by
  simp [acceptedState]

/-- Settles O42: RESUME by whether a sensor can be released; ACK TAMPER by the custody state and the contact. -/
theorem tamperIsReleased : Obligations.TamperIsReleased := by
  constructor
  · intro s h a u free
    have sensors : ∀ i, u.sensor i = s.sensor i := fun i => by simp [u, State.sensor]
    have freed : ∀ i, u.releasable i = true ↔ free i := fun i => by rw [releasable_iff, sensors]
    refine ⟨fun hn => accepted_refused rfl (by decide) a ?_, fun ⟨i, hi⟩ => ?_⟩
    · exact resume_none fun i => (freed i).not.2 (hn i)
    have rel := releaseLatched_released u
    refine ⟨releaseLatched u, fun i => ⟨fun hf => ?_, fun hf => ?_⟩, rel.only, ?_⟩
    · rw [← sensors i]
      exact rel.freed i (List.mem_finRange i) ((freed i).2 hf)
    · have kept := rel.kept i fun _ => Bool.eq_false_iff.2 ((freed i).not.2 hf)
      rw [sensors i] at kept
      exact ⟨kept.1, kept.2.trans (by rw [acceptedState_store])⟩
    · obtain ⟨t, ht, answered⟩ := accepted_row (i := .resume) rfl a (by decide)
        ((engineTake_apart _).quietQueue (quietQueue_of_queue (acceptedState_quiet a) (by rw [releaseLatched_core])))
        (resume_some ((freed i).2 hi))
      refine ⟨t, _, _, ht, answered, fun j => ?_⟩
      rw [sensorSet_getLsbD, sensorSet_getLsbD, decide_eq_true_eq, rel.latched_iff, freed, sensors]
      exact ⟨.rfl, .rfl⟩
  · intro s h contact h1 h2 values cleared
    refine ⟨fun a hc => ?_, fun a hc => ⟨?_, ?_⟩⟩
    · have hs : (acceptedState h s).screen false = .ok () := by rw [acceptedState_screen]; exact screen_clear h1 h2
      refine accepted_row rfl a (by cases contact <;> decide) (quietQueue_of_queue (acceptedState_quiet a) rfl)
        ((ackTamper_operational hs ?_).trans ?_)
      · rw [acceptedState_custody, hc]
      · rw [acceptedState_tamper]; rfl
    all_goals
      rintro rfl
      have hs : (s.endDecisionStep h).screen false = .ok () := by rw [endDecisionStep_screen]; exact screen_clear h1 h2
      have hz : (s.endDecisionStep h).store.custody = .zeroised := by rw [endDecisionStep_store]; exact hc
    · exact untagged_refused rfl a (ackTamper_no_contact hs hz)
    · refine untagged_row rfl a (quietQueue_of_queue (endDecisionStep_quiet a) ?_) ((ackTamper_zeroised hs hz).trans ?_)
      · rw [releaseLatched_core]; rfl
      · rw [endDecisionStep_tamper]; rfl

end Sys2Proof.Machine
end

section
/-! Proofs. The expiries of the timers (R14, R25, R149, R170, R171, R186 to R188). -/

namespace Sys2Proof.Machine

/-- A unit is quiet when another with its waiting steps and its order in hand is. -/
theorem quiet_of_core_order {s t : State} (h : s.quiet) (hc : t.core = s.core) (ho : t.order = s.order) : t.quiet :=
  ⟨quietQueue_of_queue h.1 (by rw [hc]), by rw [ho]; exact h.2⟩

/-! ### Entry into DORMANT: the assemblies lapse one after the other -/

/-- While no load is in hand no assembly is worked on (R42). -/
theorem loadingSlot_of_quiet {s : State} (h : s.quiet) : s.loadingSlot = none := by
  unfold State.loadingSlot
  cases hh : s.order.hand with
  | none => rfl
  | some x =>
    simp only [Option.map_some]
    split
    · next l hl => exact absurd (Option.some.inj hl) (h.2 x l hh)
    · rfl

theorem loadingSlot_of_loading {s : State} {h : OrderInHand} {l : Load} {n : SlotNo} {c : Nat} {last : Bool}
    (hh : s.order.hand = some h) (hl : h.handling = .loading l) (hk : l.kind = .component n c last) : s.loadingSlot = some n := by
  simp only [State.loadingSlot, hh, Option.map_some, hl, hk]

/-- A slot that no LOAD COMPONENT in hand works on is not the loading slot (R42). -/
theorem loadingSlot_ne {s : State} {n : SlotNo}
    (h : ∀ x l c last, s.order.hand = some x → x.handling = .loading l → l.kind ≠ .component n c last) : s.loadingSlot ≠ some n := by
  unfold State.loadingSlot
  cases hh : s.order.hand with
  | none => exact fun e => (by cases e)
  | some x =>
    simp only [Option.map_some]
    split
    · next l hl =>
      split
      · next m c last hk =>
        intro e
        cases e
        exact h x l c last hh (Option.some.inj hl) hk
      · exact fun e => (by cases e)
    · exact fun e => (by cases e)

/-- The assembly of a slot as it stands in `s` lapses in `u` (R14). -/
def lapseAs (s u : State) (n : SlotNo) : State :=
  offer .key 0x02 [byteOf n.val, byteOf ((s.slot n).components.getD []).length] (u.setSlot n (Slot.blank (s.slot n).lock))

theorem lapseAssembly_as {s u : State} {n : SlotNo} (h : u.slot n = s.slot n) : lapseAssembly n u = lapseAs s u n := by
  unfold lapseAssembly offerKey State.emptySlot
  rw [h]
  rfl

theorem lapseAs_slot (s u : State) (n m : SlotNo) :
    (lapseAs s u n).slot m = if n = m then Slot.blank (s.slot n).lock else u.slot m := by
  have stored : (lapseAs s u n).slot m = (u.setSlot n (Slot.blank (s.slot n).lock)).slot m := by
    simp only [State.slot, lapseAs, offer_store]
  rw [stored, setSlot_slot]

theorem lapseAs_only (s u : State) (n : SlotNo) :
    lapseAs s u n =
      { u with
        store := { u.store with slots := u.store.slots.set n.val (Slot.blank (s.slot n).lock) }
        report := (lapseAs s u n).report } := by
  have only := offer_only .key 0x02 [byteOf n.val, byteOf ((s.slot n).components.getD []).length]
    (u.setSlot n (Slot.blank (s.slot n).lock))
  unfold NoticesOnly at only
  unfold lapseAs
  rw [only]
  rfl

/-- A list of assemblies lapses: their slots are emptied, notices are offered, and nothing else changes (R14). -/
theorem lapseAs_fold (s u : State) {xs : List SlotNo} (hn : xs.Nodup) :
    (∀ m, (xs.foldl (lapseAs s) u).slot m = if m ∈ xs then Slot.blank (s.slot m).lock else u.slot m) ∧
      xs.foldl (lapseAs s) u =
        { u with
          store := { u.store with slots := (xs.foldl (lapseAs s) u).store.slots }
          report := (xs.foldl (lapseAs s) u).report } := by
  induction xs generalizing u with
  | nil => exact ⟨fun m => by simp, rfl⟩
  | cons n xs ih =>
    obtain ⟨fresh, hn⟩ := List.nodup_cons.1 hn
    obtain ⟨slots, only⟩ := ih (lapseAs s u n) hn
    rw [List.foldl_cons]
    refine ⟨fun m => ?_, ?_⟩
    · rw [slots, lapseAs_slot]
      by_cases e : n = m
      · subst e
        simp
      · simp [e, Ne.symm e]
    · generalize xs.foldl (lapseAs s) (lapseAs s u n) = v at only ⊢
      rw [only, lapseAs_only]

/-- The walk over a list of slots lapses those that are ASSEMBLING, in its order (R25). -/
theorem lapse_walk (s u : State) {xs : List SlotNo} (hn : xs.Nodup) (hl : u.loadingSlot = none) (hs : ∀ n ∈ xs, u.slot n = s.slot n) :
    xs.foldl (fun t n => if (t.slot n).state = .assembling ∧ t.loadingSlot ≠ some n then lapseAssembly n t else t) u =
      (xs.filter fun n => decide ((s.slot n).state = .assembling)).foldl (lapseAs s) u := by
  induction xs generalizing u with
  | nil => rfl
  | cons n xs ih =>
    obtain ⟨fresh, hn⟩ := List.nodup_cons.1 hn
    have here : u.slot n = s.slot n := hs n (List.mem_cons_self ..)
    rw [List.foldl_cons, List.filter_cons]
    by_cases ha : (s.slot n).state = .assembling
    · rw [if_pos ⟨by rw [here]; exact ha, by rw [hl]; exact fun e => (by cases e)⟩, lapseAssembly_as here,
        if_pos (decide_eq_true ha), List.foldl_cons]
      refine ih (lapseAs s u n) hn ?_ fun m hm => ?_
      · rw [lapseAs_only]
        exact hl
      · rw [lapseAs_slot, if_neg fun e => fresh (by rw [e]; exact hm)]
        exact hs m (List.mem_cons_of_mem _ hm)
    · rw [if_neg fun e => ha (by rw [← here]; exact e.1), if_neg (by simpa using ha)]
      exact ih u hn hl fun m hm => hs m (List.mem_cons_of_mem _ hm)

/-- The ASSEMBLING slots of a unit, in ascending order (R25). -/
def State.assemblies (s : State) : List SlotNo := (List.finRange 64).filter fun n => decide ((s.slot n).state = .assembling)

theorem mem_assemblies (s : State) (n : SlotNo) : n ∈ s.assemblies ↔ (s.slot n).state = .assembling := by
  simp [State.assemblies]

theorem assemblies_ascending (s : State) : s.assemblies.Pairwise fun n m => n.val < m.val :=
  (List.pairwise_lt_finRange 64).filter _

theorem assemblies_nodup (s : State) : s.assemblies.Nodup := (List.nodup_finRange 64).filter _

/-- The unit at its entry into DORMANT, before the assemblies lapse (R25). -/
def State.dormant (s : State) : State :=
  { s with
    store := { s.store with custody := .dormant, working := Vector.replicate 64 false }
    power := { s.power with idle := none } }

theorem enterDormant_eq {s : State} (h : s.quiet) : enterDormant s = offer .key 0x07 [] (s.assemblies.foldl (lapseAs s) s.dormant) := by
  have walk : lapseAssemblies (s.setCustody .dormant).discardCopies = s.assemblies.foldl (lapseAs s) s.dormant :=
    lapse_walk s s.dormant (List.nodup_finRange 64) (loadingSlot_of_quiet h) fun n _ => rfl
  rw [enterDormant, walk]
  rfl

/-! ### The timers -/

/-- While main power is up a timer is due once its deadline is reached (R170). -/
theorem due_iff {s : State} (h : s.power.supply = .main) (d : Word) :
    s.due (some d) = true ↔ (s.time.millis - d).toNat < 2147483648 := by
  simp [State.due, State.mainUp, h, deadlineReached]

theorem secondsClock_counts {s : State} (hv : s.power.valid = true) (ht : 1000 ≤ s.time.ticks) :
    exec .secondsClockAdvance s =
      .next { s with
        time := { s.time with
          seconds := if s.time.seconds.value < 4294967295 then { s.time.seconds with value := s.time.seconds.value + 1 }
            else { s.time.seconds with limit := true }
          ticks := s.time.ticks - 1000 } } := by
  show execSecondsClockAdvance s = _
  rw [execSecondsClockAdvance, if_pos ⟨hv, ht⟩, bumpCounter_eq]
  rfl

theorem secondsClock_waits {s : State} (ht : s.time.ticks < 1000) : exec .secondsClockAdvance s = .next s :=
  if_neg fun e => absurd e.2 (by omega)

/-- A lapse that reaches its slot, and one whose deadline or whose load in hand holds it back (R14, R42). -/
theorem assemblyLapse_due {s : State} {n : SlotNo} (ha : (s.slot n).state = .assembling) (hd : s.due (s.slot n).deadline = true)
    (hl : s.loadingSlot ≠ some n) (hq : s.quiet) :
    ∃ t, exec (.assemblyLapse n) s = .next t ∧ SettlesTo (lapseAs s s n) t := by
  refine ⟨settleCore (lapseAssembly n s), if_pos ⟨ha, hd, hl⟩, ?_⟩
  rw [lapseAssembly_as rfl]
  refine settleCore_settles (quiet_of_core_order hq ?_ ?_)
  all_goals rw [lapseAs_only]

theorem idleTimer_waits {s : State} {m : Nat} {d : Word} (hi : s.power.idle = some { minutes := m, deadline := d })
    (hd : ¬s.due (some d) = true) : exec .idleMinuteDeadline s = .next s ∧ exec .idleTimerExpiry s = .next s := by
  constructor
  · show execIdleMinuteDeadline s = _
    simp only [execIdleMinuteDeadline, hi]
    exact if_neg fun e => hd e.1
  · show execIdleTimerExpiry s = _
    simp only [execIdleTimerExpiry, hi]
    exact if_neg fun e => hd e.1

theorem idleTimer_counts {s : State} {m : Nat} {d : Word} (hi : s.power.idle = some { minutes := m, deadline := d })
    (hd : s.due (some d) = true) (hm : 2 ≤ m) :
    exec .idleMinuteDeadline s =
      .next { s with power := { s.power with idle := some { minutes := m - 1, deadline := d + 60000 } } } := by
  have more : 1 < m := hm
  show execIdleMinuteDeadline s = _
  simp only [execIdleMinuteDeadline, hi, hd, more, and_self, if_true]

theorem idleTimer_expires {s : State} {d : Word} (hi : s.power.idle = some { minutes := 1, deadline := d })
    (hd : s.due (some d) = true) (hc : s.store.custody = .operational) :
    exec .idleTimerExpiry s = .next (settleCore (enterDormant s)) := by
  show execIdleTimerExpiry s = _
  simp only [execIdleTimerExpiry, hi, hd, hc, le_refl, and_self, if_true]

/-- What the entry into DORMANT leaves of the unit, whatever its notices (R25). -/
theorem dormant_entered {s t : State} (h : SettlesTo (offer .key 0x07 [] (s.assemblies.foldl (lapseAs s) s.dormant)) t) :
    t.store.custody = .dormant ∧ t.power.idle = none ∧
      (∀ n, t.slot n = if (s.slot n).state = .assembling then Slot.blank (s.slot n).lock else s.slot n) ∧
      t.runs = s.runs ∧ t.dispatch = s.dispatch ∧ t.order = s.order ∧ t.tamper = s.tamper := by
  obtain ⟨slots, only⟩ := lapseAs_fold s s.dormant (assemblies_nodup s)
  generalize s.assemblies.foldl (lapseAs s) s.dormant = u at h slots only
  have store : t.store = u.store := (congrArg State.store h).trans (offer_store ..)
  have power : t.power = u.power := (congrArg State.power h).trans (offer_power ..)
  have runs : t.runs = u.runs := (congrArg State.runs h).trans (offer_runs ..)
  have dispatch : t.dispatch = u.dispatch := (congrArg State.dispatch h).trans (offer_dispatch ..)
  have order : t.order = u.order := (congrArg State.order h).trans (offer_order ..)
  have tamper : t.tamper = u.tamper := (congrArg State.tamper h).trans (offer_tamper ..)
  refine ⟨?_, ?_, fun n => ?_, ?_, ?_, ?_, ?_⟩
  · rw [store, only]; rfl
  · rw [power, only]; rfl
  · have stored : t.slot n = u.slot n := by simp only [State.slot, store]
    rw [stored, slots]
    simp only [mem_assemblies]
    rfl
  · rw [runs, only]; rfl
  · rw [dispatch, only]; rfl
  · rw [order, only]; rfl
  · rw [tamper, only]; rfl

/-- Settles O56: each expiry at its deadline and before it. -/
theorem timersExpire : Obligations.TimersExpire := by
  refine ⟨fun s hv => ⟨secondsClock_counts hv, secondsClock_waits⟩, ?_⟩
  intro s hs reached
  refine ⟨fun n h l c last hh hl hk => ?_, fun n d ha hd hno => ⟨fun hr => ?_, fun hr hq => ?_⟩, fun d hd => ⟨fun hr => ?_, fun hr => ?_⟩,
    fun d hd => ⟨fun hr => ?_, fun hr => ?_⟩, fun m d hi => ⟨fun hr => ?_, fun hr hm => ?_, fun hr hm hc hq => ?_⟩⟩
  · exact if_neg fun e => e.2.2 (loadingSlot_of_loading hh hl hk)
  · refine if_neg fun e => hr ((due_iff hs d).1 ?_)
    rw [← hd]
    exact e.2.1
  · refine assemblyLapse_due ha ?_ (loadingSlot_ne hno) hq
    rw [hd]
    exact (due_iff hs d).2 hr
  · refine if_pos ?_
    rw [hd]
    exact (due_iff hs d).2 hr
  · refine if_neg ?_
    rw [hd]
    exact fun e => hr ((due_iff hs d).1 e)
  · refine if_pos ?_
    rw [hd]
    exact (due_iff hs d).2 hr
  · refine if_neg ?_
    rw [hd]
    exact fun e => hr ((due_iff hs d).1 e)
  · exact idleTimer_waits hi fun e => hr ((due_iff hs d).1 e)
  · exact idleTimer_counts hi ((due_iff hs d).2 hr) hm
  · subst hm
    have settled : SettlesTo (offer .key 0x07 [] (s.assemblies.foldl (lapseAs s) s.dormant)) (settleCore (enterDormant s)) := by
      rw [← enterDormant_eq hq]
      have lapsed := (lapseAs_fold s s.dormant (assemblies_nodup s)).2
      refine settleCore_settles ?_
      rw [enterDormant_eq hq]
      refine quiet_of_core_order hq ?_ ?_
      · rw [offer_core, lapsed]; rfl
      · rw [offer_order, lapsed]; rfl
    obtain ⟨custody, idle, slots, runs, dispatch, order, tamper⟩ := dormant_entered settled
    exact ⟨s.assemblies, _, assemblies_ascending s, mem_assemblies s, idleTimer_expires hi ((due_iff hs d).2 hr) hc, custody, idle, slots,
      runs, dispatch, order, tamper, settled⟩

end Sys2Proof.Machine
end

section
/-! Proofs. The long operations of the store: verify steps and the ends of scrub passes (R6, R18, R24, R27). -/

namespace Sys2Proof.Machine

/-! ### Where a verify goes on -/

/-- The slot a verify goes on at (R24). -/
theorem nextVisit_from {s : State} {start : Nat} {n : SlotNo} (hs : start ≤ n.val) (hv : (s.slot n).visited = true)
    (hm : ∀ m : SlotNo, start ≤ m.val → m.val < n.val → (s.slot m).visited = false) : s.nextVisit start = some n := by
  rw [State.nextVisit, List.find?_eq_some_iff_getElem]
  refine ⟨by simp [hs, hv], n.val, by simp, by simp, fun j hj => ?_⟩
  by_cases hsj : start ≤ j
  · simp [hm ⟨j, by omega⟩ hsj hj]
  · simp [hsj]

theorem nextVisit_from_none {s : State} {start : Nat} (hm : ∀ m : SlotNo, start ≤ m.val → (s.slot m).visited = false) :
    s.nextVisit start = none := by
  rw [State.nextVisit, List.find?_eq_none]
  intro m _
  by_cases hs : start ≤ m.val
  · simp [hm m hs]
  · simp [hs]

/-- A verify goes on at the next ACTIVE or RETIRED slot (R24). -/
theorem visitFrom_next {cause : VerifyCause} {damaged start : Nat} {s : State} {n : SlotNo} (hs : start ≤ n.val)
    (hv : (s.slot n).state = .active ∨ (s.slot n).state = .retired)
    (hm : ∀ m : SlotNo, start ≤ m.val → m.val < n.val → ¬((s.slot m).state = .active ∨ (s.slot m).state = .retired)) :
    visitFrom cause damaged start s =
      { s with store := { s.store with verify := some { cause := cause, slot := n, damaged := damaged } } } := by
  rw [visitFrom, nextVisit_from hs ((visited_iff _).2 hv) fun m h k => (not_visited_iff _).2 (not_or.1 (hm m h k))]

/-- With no more slot to visit a verify completes (R24). -/
theorem visitFrom_completes {cause : VerifyCause} {damaged start : Nat} {s : State}
    (hm : ∀ m : SlotNo, start ≤ m.val → ¬((s.slot m).state = .active ∨ (s.slot m).state = .retired)) :
    visitFrom cause damaged start s = finishVerify cause damaged s := by
  rw [visitFrom, nextVisit_from_none fun m h => (not_visited_iff _).2 (not_or.1 (hm m h))]

theorem visitFrom_core (cause : VerifyCause) (damaged start : Nat) (s : State) : (visitFrom cause damaged start s).core = s.core := by
  unfold visitFrom finishVerify offerKey
  split
  · cases cause <;> simp
  · rfl

theorem visitFrom_order (cause : VerifyCause) (damaged start : Nat) (s : State) : (visitFrom cause damaged start s).order = s.order := by
  unfold visitFrom finishVerify offerKey
  split
  · cases cause <;> simp
  · rfl

/-! ### A verify step -/

theorem damageSlot_core (n : SlotNo) (s : State) : (damageSlot n s).core = s.core := by simp [damageSlot, offerKey]

theorem damageSlot_order (n : SlotNo) (s : State) : (damageSlot n s).order = s.order := by simp [damageSlot, offerKey]

/-- A slot found DAMAGED leaves every other slot as it is (R24). -/
theorem damageSlot_slot {n m : SlotNo} (h : n ≠ m) (s : State) : (damageSlot n s).slot m = s.slot m := by
  have stored : (damageSlot n s).slot m = (s.setSlot n { s.slot n with state := .damaged }).slot m := by
    simp [State.slot, damageSlot, offerKey]
  rw [stored, setSlot_slot, if_neg h]

/-- The unit once the visited slot's check value has been compared, before the verify goes on (R24). -/
def visitedState (v : Verify) (result : Block) (s : State) : State :=
  if (s.slot v.slot).check = some (checkOfBlock result) then s else damageSlot v.slot s

theorem verifySlot_eq (v : Verify) (result : Block) (s : State) :
    verifySlot v result s =
      visitFrom v.cause (v.damaged + if (s.slot v.slot).check = some (checkOfBlock result) then 0 else 1) (v.slot.val + 1)
        (visitedState v result s) := by
  unfold verifySlot visitedState
  split <;> rfl

theorem visitedState_slot {v : Verify} {m : SlotNo} (h : v.slot.val < m.val) (result : Block) (s : State) :
    (visitedState v result s).slot m = s.slot m := by
  unfold visitedState
  split
  · rfl
  · exact damageSlot_slot (fun e => by rw [e] at h; exact absurd h (lt_irrefl _)) s

theorem visitedState_core (v : Verify) (result : Block) (s : State) : (visitedState v result s).core = s.core := by
  unfold visitedState
  split
  exacts [rfl, damageSlot_core _ _]

theorem visitedState_order (v : Verify) (result : Block) (s : State) : (visitedState v result s).order = s.order := by
  unfold visitedState
  split
  exacts [rfl, damageSlot_order _ _]

/-- The event of a verify step ends with the engine's takes (R24, R91). -/
theorem slotVerifyStep_settles {s : State} {v : Verify} (hv : s.store.verify = some v) (hc : s.coreServes .verify = true) (hq : s.quiet) :
    ∃ t, exec .slotVerifyStep s = .next t ∧ SettlesTo (engineTake (verifySlot v s.coreResult s.endStep)) t := by
  refine ⟨settleUnit (verifySlot v s.coreResult s.endStep), ?_, settleUnit_settles ?_⟩
  · show execSlotVerifyStep s = _
    simp only [execSlotVerifyStep, hv, hc, if_true]
  · rw [verifySlot_eq]
    refine ⟨quietQueue_of_queue hq.1 ?_, ?_⟩
    · rw [visitFrom_core, visitedState_core]; rfl
    · rw [visitFrom_order, visitedState_order]; exact hq.2

/-! ### The ends of scrub passes -/

theorem releaseVerify_core (s : State) : (releaseVerify s).core = s.core := by
  unfold releaseVerify
  split
  exacts [visitFrom_core .., rfl]

theorem releaseVerify_order (s : State) : (releaseVerify s).order = s.order := by
  unfold releaseVerify
  split
  exacts [visitFrom_order .., rfl]

theorem releaseVerify_none {s : State} (h : s.store.verifyWaits = false) : releaseVerify s = s := by
  rw [releaseVerify, h]
  rfl

/-- The end of a scrub pass: its notice, and the verify that waited for it (R6, R18, R27). -/
theorem scrub_ends {s : State} {i : Instr} {variant : Byte} {values : Bytes} (hq : s.quiet)
    (hi : (∃ n, s.store.scrub = some (.erase n) ∧ i = .eraseScrubComplete ∧ variant = 0x03 ∧ values = [byteOf n.val]) ∨
      (s.store.scrub = some .zeroise ∧ i = .zeroiseScrubComplete ∧ variant = 0x08 ∧ values = [])) :
    ∃ t, exec i s = .next t ∧ SettlesTo (releaseVerify (offer .key variant values s.endScrub)) t := by
  refine ⟨settleCore (releaseVerify (offer .key variant values s.endScrub)), ?_,
    settleCore_settles (quiet_of_core_order hq ?_ ?_)⟩
  · rcases hi with ⟨n, hs, rfl, rfl, rfl⟩ | ⟨hs, rfl, rfl, rfl⟩
    · show execEraseScrubComplete s = _
      simp only [execEraseScrubComplete, hs]
      rfl
    · show execZeroiseScrubComplete s = _
      simp only [execZeroiseScrubComplete, hs]
      rfl
  · rw [releaseVerify_core, offer_core]; rfl
  · rw [releaseVerify_order, offer_order]; rfl

/-- Settles O57: a verify step by where it goes on; the end of a scrub pass by whether a verify waited for it. -/
theorem longOperationsComplete : Obligations.LongOperationsComplete := by
  refine ⟨fun s v hv hc hq => ?_, fun s hq hw => ?_, fun s i variant values hq hw hi => ?_⟩
  · intro agrees u damaged x visited gives
    have ends := slotVerifyStep_settles hv hc hq
    rw [verifySlot_eq] at ends
    have same : ∀ m : SlotNo, v.slot.val < m.val → (visitedState v s.coreResult u).slot m = s.slot m := fun m h =>
      visitedState_slot h s.coreResult u
    refine ⟨fun n hn hvis hbetween => ?_, fun hnone => ?_⟩
    · rw [visitFrom_next (n := n) hn (by rw [same n hn]; exact hvis)
        (fun m h k => by rw [same m h]; exact hbetween m h k)] at ends
      exact ends
    · rw [visitFrom_completes fun m h => by rw [same m h]; exact hnone m h] at ends
      refine ⟨fun cause => ?_, fun cause => ?_⟩
      all_goals
        rw [cause] at ends
        exact ends
  · have unreleased (variant : Byte) (values : Bytes) :
        releaseVerify (offer .key variant values s.endScrub) = offer .key variant values s.endScrub :=
      releaseVerify_none (by rw [offer_store]; exact hw)
    intro u
    refine ⟨fun n hs => ?_, fun hs => ?_⟩
    · have ends := scrub_ends hq (.inl ⟨n, hs, rfl, rfl, rfl⟩)
      rw [unreleased] at ends
      exact ends
    · have ends := scrub_ends hq (.inr ⟨hs, rfl, rfl, rfl⟩)
      rw [unreleased] at ends
      exact ends
  · intro visited told gives
    have ends := scrub_ends hq hi
    have waits : told.store.verifyWaits = true := by
      rw [show told.store = s.endScrub.store from offer_store ..]
      exact hw
    have slot : ∀ m, told.slot m = s.slot m := fun m => by
      rw [State.slot, show told.store = s.endScrub.store from offer_store ..]
      rfl
    have begins : releaseVerify told =
        visitFrom .restore 0 0 { told with store := { told.store with verifyWaits := false } } := by
      rw [releaseVerify, if_pos waits, beginVerify]
    have released : ∃ t, exec i s = .next t ∧ SettlesTo (releaseVerify told) t := ends
    rw [begins] at released
    have slots : ∀ m, State.slot { told with store := { told.store with verifyWaits := false } } m = s.slot m := slot
    refine ⟨fun n hvis hbefore => ?_, fun hnone => ?_⟩
    · rw [visitFrom_next (Nat.zero_le n.val) (by rw [slots]; exact hvis) (fun m _ k => by rw [slots]; exact hbefore m k)] at released
      exact released
    · rw [visitFrom_completes fun m _ => by rw [slots]; exact hnone m] at released
      exact released

end Sys2Proof.Machine
end

section
/-! Proofs. An accepted ZEROISE (R27, R28, R163, R164). -/

namespace Sys2Proof.Machine

/-! ### The event in the tamper record and its notice -/

/-- The entry ORDER of the tamper record (R163, R164). -/
def State.orderEntry (s : State) : TamperEntry :=
  { source := .order, seconds := s.time.seconds.value, millis := some (s.time.millis.setWidth 16), action := .zeroise,
    before := s.store.custody }

/-- The Tamper Monitor with the event ORDER entered, or counted when the record is full (R163). -/
def State.orderEntered (s : State) : TamperMonitor :=
  let room := decide (s.tamper.record.length < 8)
  { s.tamper with
    record := if room then s.tamper.record ++ [s.orderEntry] else s.tamper.record
    overflow := if room then s.tamper.overflow else bumpCounter 255 s.tamper.overflow
    events := bumpCounter 255 s.tamper.events }

/-- The unit with ZEROISE entered and its TAMPER notice offered, before the slots are emptied (R156, R164). -/
def orderTold (h : OrderInHand) (s : State) : State :=
  offer .tamper 0x0F
    ([0x0F, 0x00] ++ be32 s.time.seconds.value ++ be16 (s.time.millis.toNat % 65536) ++
      [s.store.custody.code, if decide (s.tamper.record.length < 8) then 0x01 else 0x00])
    { acceptedState h s with tamper := s.orderEntered }

theorem enterTamper_zeroise {s : State} (hm : s.power.supply = .main) (h : OrderInHand) :
    (acceptedState h s).enterTamper .order .zeroise = { acceptedState h s with tamper := s.orderEntered } := by
  have up : s.mainUp = true := by simp [State.mainUp, hm]
  simp only [State.enterTamper, acceptedState_tamper, acceptedState_time, acceptedState_custody, acceptedState_mainUp, up, if_true,
    State.orderEntered, State.orderEntry, decide_eq_true_eq]
  rfl

/-- ZEROISE zeroises the unit with its event entered and told (R27, R164). -/
theorem takeZeroise_told {s : State} (hm : s.power.supply = .main) (h : OrderInHand) (a : OrderArgs) :
    zeroiseRule.take a (acceptedState h s) = .answered .started [] (zeroise (orderTold h s)) := by
  have told : offerTamper .order .zeroise (decide ((acceptedState h s).tamper.record.length < 8))
      ((acceptedState h s).enterTamper .order .zeroise) = orderTold h s := by
    rw [enterTamper_zeroise hm, offerTamper]
    unfold orderTold
    dsimp only
    rw [acceptedState_time, acceptedState_custody, acceptedState_tamper]
    rfl
  rw [← told]
  rfl

/-! ### The store, the Core and the order at the zeroisation -/

/-- The unit zeroised by an accepted order, with this Run Table, before the LINE notices and the abort (R27, R28, R33). -/
def orderZeroised (h : OrderInHand) (s : State) (table : List Run) : State :=
  { orderTold h s with
    store := { s.store with
      slots := Vector.replicate 64 (Slot.blank false), custody := .zeroised, lastOrder := 0,
      suspend := Vector.replicate 6 false, scrub := some .zeroise, verify := none, working := Vector.replicate 64 false }
    power := { s.power with idle := none }
    core := {
      work := .idle, engineWaits := s.core.engineWaits,
      queue := s.core.queue.filter fun k => decide (k.user ≠ .order) && decide (k.user ≠ .verify) }
    runs := { s.runs with table := table }
    order := { s.order with hand := some { h with handling := .untagged }, gate := { grants := [], deadline := none } } }

theorem orderTold_store (h : OrderInHand) (s : State) : (orderTold h s).store = { s.store with lastOrder := h.number } := by
  rw [orderTold, offer_store]
  exact acceptedState_store h s

theorem orderTold_core (h : OrderInHand) (s : State) : (orderTold h s).core = { s.core with work := .idle } := by
  rw [orderTold, offer_core]
  simp [acceptedState, State.endStep]

theorem orderTold_runs (h : OrderInHand) (s : State) : (orderTold h s).runs = s.runs := by
  rw [orderTold, offer_runs]
  exact acceptedState_runs h s

theorem orderTold_order (h : OrderInHand) (s : State) : (orderTold h s).order = s.order := by
  rw [orderTold, offer_order]
  exact acceptedState_order h s

theorem orderTold_engine (h : OrderInHand) (s : State) : (orderTold h s).engine = s.engine := by
  rw [orderTold, offer_engine]
  exact acceptedState_engine h s

theorem orderTold_dispatch (h : OrderInHand) (s : State) : (orderTold h s).dispatch = s.dispatch := by
  rw [orderTold, offer_dispatch]
  exact acceptedState_dispatch h s

theorem orderTold_power (h : OrderInHand) (s : State) :
    { (orderTold h s).power with idle := none } = { s.power with idle := none } := by
  rw [orderTold, offer_power]
  unfold acceptedState State.startIdle
  dsimp only
  split <;> rfl

theorem orderTold_slot (h : OrderInHand) (s : State) (n : SlotNo) : (orderTold h s).slot n = s.slot n := by
  simp only [State.slot, orderTold_store]

theorem orderTold_reported (h : OrderInHand) (s : State) (l : LineNo) : (orderTold h s).reported l = s.reported l := by
  have line : (orderTold h s).line l = s.line l := by simp only [State.line, orderTold_dispatch]
  have usable : (orderTold h s).lineKeyUsable l = s.lineKeyUsable l := by
    unfold State.lineKeyUsable
    rw [line]
    cases (s.line l).keySlot with
    | none => rfl
    | some n => exact congrArg Slot.usable (orderTold_slot h s n)
  simp only [State.reported, line, usable]

/-- The zeroisation of the store by an accepted order, whose step has ended (R27, R33, R140). -/
theorem zeroiseStore_orderTold {s : State} {h : OrderInHand} {n : SlotNo} {j : TagJob} (hm : s.power.supply = .main)
    (hh : s.order.hand = some h) (hc : h.handling = .comparing n j) :
    markBattery ((zeroiseStore (zeroiseOrder (orderTold h s))).setCustody .zeroised) = orderZeroised h s s.runs.table := by
  have main : (orderTold h s).power.supply = .main := by
    have same := congrArg PowerController.supply (orderTold_power h s)
    exact same.trans hm
  rw [zeroiseOrder_comparing (by rw [orderTold_order]; exact hh) hc]
  unfold markBattery zeroiseStore State.setCustody State.discardUser
  dsimp only
  rw [if_neg (by rw [main]; decide), orderTold_core, orderTold_order, orderTold_store]
  dsimp only
  rw [List.filter_filter]
  unfold orderZeroised
  have power := orderTold_power h s
  have filters : s.core.queue.filter (fun k => decide (k.user ≠ .verify) && decide (k.user ≠ .order)) =
      s.core.queue.filter fun k => decide (k.user ≠ .order) && decide (k.user ≠ .verify) :=
    List.filter_congr fun k _ => Bool.and_comm ..
  rw [filters]
  rw [← orderTold_runs h s, ← power]
  rfl

/-! ### The abort of the record in the engine -/

/-- The record in the engine fails ABORTED, its waiting step dropped (R96). -/
def abortsFor (s x : State) : State :=
  match s.engine with
  | none => x
  | some w => failRecord w .aborted { x with core := { x.core with engineWaits := none } }

theorem abortRecord_idle {s x : State} (he : x.engine = s.engine) (hw : x.core.work = .idle) : abortRecord x = abortsFor s x := by
  unfold abortRecord abortsFor
  rw [he]
  cases hs : s.engine with
  | none => rfl
  | some w => simp only [State.discardEngineStep, hw, he, hs]

/-- What the abort of a record leaves (R95, R96). -/
theorem abortsFor_only {s x : State} (he : x.engine = s.engine) :
    ∃ (table : List Run) (report : ReportUnit) (lines : Vector Line 8) (waits : Option CipherStep),
      (∀ l : LineNo, lines[l.val] = { x.line l with occupied := lines[l.val].occupied }) ∧
        abortsFor s x =
          { x with
            engine := none
            dispatch := { x.dispatch with lines := lines }
            runs := { x.runs with table := table }
            report := report
            core := { x.core with engineWaits := waits } } := by
  unfold abortsFor
  rw [← he]
  cases hw : x.engine with
  | none =>
    refine ⟨x.runs.table, x.report, x.dispatch.lines, x.core.engineWaits, fun l => rfl, ?_⟩
    dsimp only
    rw [← hw]
  | some w =>
    obtain ⟨table, report, failed⟩ := failRecord_only w .aborted { x with core := { x.core with engineWaits := none } }
    refine ⟨table, report, _, none, fun l => ?_, failed⟩
    rw [Vector.getElem_set]
    by_cases e : w.line = l
    · subst e
      rw [if_pos rfl]
      rfl
    · rw [if_neg fun k => e (Fin.ext k)]
      rfl

/-! ### The zeroised unit and its answer -/

/-- A zeroisation by an accepted order: the store, the runs that named a slot it emptied, the lines, the engine (R27, R46, R96, R102). -/
theorem zeroise_orderTold {s : State} {h : OrderInHand} {n : SlotNo} {j : TagJob} (hm : s.power.supply = .main)
    (hh : s.order.hand = some h) (hc : h.handling = .comparing n j) :
    ∃ table, zeroise (orderTold h s) = abortsFor s (lineNotices s (orderZeroised h s table)) ∧
      List.Forall₂
        (fun r y =>
          (s.losesKey r →
            y = { r with holds := { r.holds with key := true }, state := if r.state = .live then .held else r.state }) ∧
          (¬s.losesKey r → y = r)) s.runs.table table := by
  obtain ⟨table, reported, runs⟩ := reportZeroised_runs (orderTold h s) (orderZeroised h s s.runs.table)
  have zeroised : reportZeroised (orderTold h s) (orderZeroised h s s.runs.table) = orderZeroised h s table := reported
  refine ⟨table, ?_, runs.imp fun r y told => ?_⟩
  · unfold zeroise
    dsimp only
    rw [zeroiseStore_orderTold hm hh hc, zeroised, lineNotices_was (orderTold_reported h s)]
    refine abortRecord_idle ?_ ?_
    · rw [lineNotices_engine]
      exact orderTold_engine h s
    · rw [lineNotices_core]
      rfl
  · have lost : (orderTold h s).losesKey r ↔ s.losesKey r := by
      simp only [State.losesKey, State.loses, orderTold_slot]
    exact ⟨fun k => told.1 (lost.2 k), fun k => told.2 fun k' => k (lost.1 k')⟩

/-- The unit answered without a tag, for want of a key to make it with (R27, R151). -/
def State.answeredUntagged (s : State) (h : OrderInHand) (r : OrderResult) : State :=
  { s with
    order := { s.order with
      hand := some { h with handling := .answered }
      answer := some (answerFrame (s.answerMessage h r []) 0) } }

theorem buildAnswer_zeroised {s : State} (h : OrderInHand) (r : OrderResult) (hg : s.order.gate = { grants := [], deadline := none })
    (hs : s.slot 0 = Slot.blank false) : buildAnswer h r [] false s.emptyGate = s.answeredUntagged h r := by
  have same : s.emptyGate = s := by rw [State.emptyGate, ← hg]
  have keyless : s.activeKey 0 = none := by rw [State.activeKey, hs]; rfl
  rw [same, buildAnswer]
  simp only [keyless, Bool.false_eq_true, if_false]
  rfl

/-- Code and result stand at the head of an answer's body (R151, 12.1). -/
theorem answerMessage_head (s : State) (h : OrderInHand) (r : OrderResult) (values : Bytes) :
    sliceBytes (s.answerMessage h r values) 8 2 = [h.code, r.code] := rfl

/-- The event counter rises by one, up to its limit (R163). -/
theorem bumpCounter_value (max : Nat) (c : Counter) : (bumpCounter max c).value = min (c.value + 1) (Max.max c.value max) := by
  rw [bumpCounter_eq]
  split <;> dsimp only <;> omega

/-- What an accepted ZEROISE leaves of each block beside the runs, the notices and the Core (R27, R28, R163). -/
structure ZeroiseLeaves (h : OrderInHand) (s t : State) : Prop where
  store : t.store =
    { s.store with
      slots := Vector.replicate 64 (Slot.blank false), custody := .zeroised, lastOrder := 0,
      suspend := Vector.replicate 6 false, scrub := some .zeroise, verify := none, working := Vector.replicate 64 false }
  engine : t.engine = none
  gate : t.order.gate = { grants := [], deadline := none }
  idle : t.power.idle = none
  tamper : t.tamper = s.orderEntered
  recipes : t.recipes = s.recipes
  staging : t.runs.staging = s.runs.staging
  link : t.link = s.link
  time : t.time = s.time
  lines : ∀ l, t.line l = { s.line l with occupied := (t.line l).occupied }
  groups : ∀ g, t.group g = s.group g
  production : t.dispatch.production = s.dispatch.production

theorem orderZeroised_time (h : OrderInHand) (s : State) (table : List Run) : (orderZeroised h s table).time = s.time :=
  (offer_time ..).trans (acceptedState_time h s)

theorem orderZeroised_link (h : OrderInHand) (s : State) (table : List Run) : (orderZeroised h s table).link = s.link :=
  (offer_link ..).trans (acceptedState_link h s)

theorem orderZeroised_recipes (h : OrderInHand) (s : State) (table : List Run) : (orderZeroised h s table).recipes = s.recipes :=
  (offer_recipes ..).trans (acceptedState_recipes h s)

theorem orderZeroised_tamper (h : OrderInHand) (s : State) (table : List Run) : (orderZeroised h s table).tamper = s.orderEntered :=
  offer_tamper ..

/-- The zeroised unit, its record aborted. -/
theorem abortsFor_leaves (h : OrderInHand) (s : State) (table : List Run) :
    ZeroiseLeaves h s (abortsFor s (lineNotices s (orderZeroised h s table))) ∧
      (abortsFor s (lineNotices s (orderZeroised h s table))).core.queue =
        s.core.queue.filter fun k => decide (k.user ≠ .order) && decide (k.user ≠ .verify) := by
  have engine : (lineNotices s (orderZeroised h s table)).engine = s.engine := by
    rw [lineNotices_engine]
    exact orderTold_engine h s
  obtain ⟨table', report, lines, waits, each, only⟩ := abortsFor_only engine
  have dispatch : (lineNotices s (orderZeroised h s table)).dispatch = s.dispatch := by
    rw [lineNotices_dispatch]
    exact orderTold_dispatch h s
  have line : ∀ l, (lineNotices s (orderZeroised h s table)).line l = s.line l := fun l => by simp only [State.line, dispatch]
  refine ⟨?_, ?_⟩
  · rw [only]
    refine ⟨?_, rfl, ?_, ?_, ?_, ?_, ?_, ?_, ?_, fun l => ?_, fun g => ?_, ?_⟩ <;> dsimp only
    · rw [lineNotices_store]; rfl
    · rw [lineNotices_order]; rfl
    · rw [lineNotices_power]; rfl
    · rw [lineNotices_tamper]; exact orderZeroised_tamper h s table
    · rw [lineNotices_recipes]; exact orderZeroised_recipes h s table
    · rw [lineNotices_runs]; rfl
    · rw [lineNotices_link]; exact orderZeroised_link h s table
    · rw [lineNotices_time]; exact orderZeroised_time h s table
    · rw [← line l]
      exact each l
    · simp only [State.group, dispatch]
    · rw [dispatch]
  · rw [only, lineNotices_core]
    rfl

/-- The answer changes the order in hand and the answer slot, and the sharing of the Core nothing else. -/
theorem ZeroiseLeaves.answered {h : OrderInHand} {s w t : State} {r : OrderResult} (k : ZeroiseLeaves h s w)
    (ht : SettlesTo (w.answeredUntagged h r) t) : ZeroiseLeaves h s t := by
  rw [SettlesTo] at ht
  rw [ht]
  exact ⟨k.store, k.engine, k.gate, k.idle, k.tamper, k.recipes, k.staging, k.link, k.time, k.lines, k.groups, k.production⟩

/-- Settles O33: the effects of an accepted ZEROISE in their order, then its untagged answer. -/
theorem zeroiseEmptiesTheStore : Obligations.ZeroiseEmptiesTheStore := by
  intro s h a u room entry told lost hit aborts
  obtain ⟨hm, hh, -, standing, quiet⟩ := a.handles.decides
  obtain ⟨n, j, hc⟩ := comparing_of_accepted standing
  obtain ⟨table, zeroised, runs⟩ := zeroise_orderTold hm hh hc
  obtain ⟨leaves, queue⟩ := abortsFor_leaves h s table
  have queued : (abortsFor s (lineNotices s (orderZeroised h s table))).quietQueue := by
    intro k hk
    rw [queue] at hk
    exact quiet k (List.mem_filter.1 hk).1
  obtain ⟨t, executed, answered⟩ := accepted_row (i := .zeroise) rfl a (by decide) queued
    ((takeZeroise_told hm h _).trans (by rw [zeroised]))
  have blank : (abortsFor s (lineNotices s (orderZeroised h s table))).slot 0 = Slot.blank false := by
    rw [State.slot, leaves.store]
    rfl
  unfold AnswersWith at answered
  rw [buildAnswer_zeroised h .started leaves.gate blank] at answered
  have after := leaves.answered answered
  have order := congrArg State.order answered
  refine ⟨t, executed, ?_, ?_, ?_, ?_, ?_, ?_, after.engine, ?_, ?_, after.idle,
    ⟨_, ?_, ?_, answerMessage_head (abortsFor s (lineNotices s (orderZeroised h s table))) h .started []⟩, ?_, ?_, ?_,
    after.recipes, after.staging, after.link, after.time, ?_, ?_, after.lines, after.groups, after.production,
    table, orderZeroised h s table, runs, rfl, answered⟩
  · rw [after.store]
  · rw [after.store]
  · rw [after.store]
  · rw [State.suspended, after.store]; rfl
  · rw [after.store]
  · rw [after.store]
  · rw [after.gate]
  · rw [after.gate]
  · rw [order]; rfl
  · rw [order]; rfl
  · rw [after.tamper]
    exact bumpCounter_value 255 _
  · intro space
    rw [after.tamper, State.orderEntered, decide_eq_true space]
    exact ⟨rfl, rfl⟩
  · intro full
    rw [after.tamper, State.orderEntered, decide_eq_false (not_lt.2 full)]
    exact ⟨rfl, rfl⟩
  · rw [after.tamper]; rfl
  · rw [after.tamper]; rfl

end Sys2Proof.Machine
end

section
/-! Proofs. The Core's steps stay its users' own (R32, R35, R42). The invariant reads of the unit its Core, the order in hand and the
answer slot. No operation but the sharing of the Core gives the Key Store side a step: `Sheds` says so, and `Steady` that the order in
hand stays as well. An event that takes the order in hand somewhere else does so while no step of a load waits, as `Unladen` says. -/

namespace Sys2Proof.Machine

/-! ### What the invariant reads -/

/-- The Key Store side has no step that it had not, and the answer slot is as it was: waiting steps may have been given up, and the step
in progress may have ended or been discarded (R33). -/
structure Sheds (s t : State) : Prop where
  queue : t.core.queue.Sublist s.core.queue
  served : ∀ k, t.core.work = .keyStore k false → s.core.work = .keyStore k false
  answer : t.order.answer = s.order.answer

/-- The Key Store side has no step that it had not, and the order in hand and the answer slot are as they were. -/
structure Steady (s t : State) : Prop extends Sheds s t where
  hand : t.order.hand = s.order.hand

theorem Sheds.refl (s : State) : Sheds s s := ⟨.refl _, fun _ h => h, rfl⟩

theorem Sheds.trans {s t u : State} (h : Sheds s t) (k : Sheds t u) : Sheds s u :=
  ⟨k.queue.trans h.queue, fun j hj => h.served j (k.served j hj), k.answer.trans h.answer⟩

theorem Steady.refl (s : State) : Steady s s := ⟨.refl s, rfl⟩

theorem Steady.trans {s t u : State} (h : Steady s t) (k : Steady t u) : Steady s u :=
  ⟨h.toSheds.trans k.toSheds, k.hand.trans h.hand⟩

/-- An operation that keeps the Core and the Order Unit. -/
theorem Steady.of_eq {s t : State} (hc : t.core = s.core) (ho : t.order = s.order) : Steady s t :=
  ⟨⟨by rw [hc], fun k h => by rw [← hc]; exact h, by rw [ho]⟩, by rw [ho]⟩

/-- What comes after such an operation is judged from where it began. -/
theorem Steady.after {s t u : State} (h : Steady t u) (hc : t.core = s.core) (ho : t.order = s.order) : Steady s u :=
  (of_eq hc ho).trans h

theorem NoticesOnly.steady {s t : State} (h : NoticesOnly s t) : Steady s t := .of_eq h.core h.order

theorem Apart.steady {s t : State} (h : Apart s t) : Steady s t :=
  ⟨⟨by rw [h.queue], fun k e => by rw [← h.work]; exact e, by rw [h.order]⟩, by rw [h.order]⟩

theorem offer_steady (k : NoticeKind) (v : Byte) (x : Bytes) (s : State) : Steady s (offer k v x s) := (offer_only k v x s).steady

theorem ite_steady {c : Prop} [Decidable c] {s t u : State} (ht : Steady s t) (hu : Steady s u) : Steady s (if c then t else u) := by
  split
  exacts [ht, hu]

theorem foldl_steady {α : Type} {f : State → α → State} (hf : ∀ t a, Steady t (f t a)) (xs : List α) (s : State) :
    Steady s (xs.foldl f s) := by
  induction xs generalizing s with
  | nil => exact .refl s
  | cons a rest ih => exact (hf s a).trans (ih (f s a))

/-- The step in progress ends (R32). -/
theorem endStep_steady (s : State) : Steady s s.endStep :=
  ⟨⟨.refl _, fun _ h => (by cases h), rfl⟩, rfl⟩

theorem CoreTidy.steady {s t : State} (h : CoreTidy s) (k : Steady s t) : CoreTidy t where
  users := h.users.sublist (k.queue.map _)
  served j hj hm := h.served j (k.served j hj) ((k.queue.map _).subset hm)
  counts j hj hc := by rw [k.hand]; exact h.counts j (k.queue.subset hj) hc
  loads j hj hu := by rw [k.hand]; exact h.loads j (k.queue.subset hj) hu
  answer ha := by rw [k.hand]; exact h.answer (by rw [← k.answer]; exact ha)

/-! ### No step of a load waits -/

/-- The Core is tidy whatever order is in hand: no step of a load waits, and the answer slot is empty. -/
structure Unladen (s : State) : Prop where
  users : (s.core.queue.map KsStep.user).Nodup
  served : ∀ k, s.core.work = .keyStore k false → k.user ∉ s.core.queue.map KsStep.user
  counts : s.quietQueue
  loads : ∀ k ∈ s.core.queue, k.user ≠ .load
  answer : s.order.answer = none

theorem Unladen.sheds {s t : State} (h : Unladen s) (k : Sheds s t) : Unladen t where
  users := h.users.sublist (k.queue.map _)
  served j hj hm := h.served j (k.served j hj) ((k.queue.map _).subset hm)
  counts j hj := h.counts j (k.queue.subset hj)
  loads j hj := h.loads j (k.queue.subset hj)
  answer := k.answer.trans h.answer

/-- A unit with an unladen Core is tidy with any order in hand, an answer standing in the slot only for one that is answered. -/
theorem Unladen.tidy {s t : State} (h : Unladen s) (hc : t.core = s.core)
    (ha : t.order.answer = none ∨ ∃ x, t.order.hand = some x ∧ x.handling = .answered) : CoreTidy t where
  users := by rw [hc]; exact h.users
  served := by rw [hc]; exact h.served
  counts k hk hn := by rw [hc] at hk; exact absurd (h.counts k hk) hn
  loads k hk hu := by rw [hc] at hk; exact absurd hu (h.loads k hk)
  answer hn := ha.resolve_left hn

/-- A tidy unit of whose waiting steps none is a load's, and whose order in hand is not answered. -/
theorem CoreTidy.unladen {s : State} (h : CoreTidy s) (hl : ∀ k ∈ s.core.queue, k.user ≠ .load)
    (ha : ∀ x, s.order.hand = some x → x.handling ≠ .answered) : Unladen s where
  users := h.users
  served := h.served
  counts k hk := by by_contra hc; exact hl k hk (h.counts k hk hc).1
  loads := hl
  answer := by
    by_contra hn
    obtain ⟨x, hx, e⟩ := h.answer hn
    exact ha x hx e

/-- An order in hand of which no load is made: no step of a load waits for it (R35, R42). -/
theorem CoreTidy.no_loads {s : State} (h : CoreTidy s) {x : OrderInHand} (hx : s.order.hand = some x)
    (hl : ∀ l, x.handling ≠ .loading l) (hc : ∀ key, x.handling ≠ .checking key) : ∀ k ∈ s.core.queue, k.user ≠ .load := by
  intro k hk hu
  obtain ⟨y, hy, e⟩ := h.loads k hk hu
  obtain rfl : x = y := Option.some.inj (hx.symm.trans hy)
  rcases e with ⟨l, e⟩ | ⟨key, e⟩
  exacts [hl l e, hc key e]

/-- While the Core serves a load's step no other step of a load waits (R32). -/
theorem CoreTidy.no_loads_served {s : State} (h : CoreTidy s) (hs : s.coreServes .load = true) :
    ∀ k ∈ s.core.queue, k.user ≠ .load := by
  intro k hk hu
  unfold State.coreServes at hs
  split at hs
  · next j hw => exact h.served j hw (List.mem_map.2 ⟨k, hk, hu.trans (of_decide_eq_true hs).symm⟩)
  · cases hs

/-! ### The sharing of the Core -/

/-- A user presents a step of its own. -/
theorem wantedStep_user {s : State} {u : KsUser} {k : KsStep} (h : s.wantedStep u = some k) : k.user = u := by
  cases u with
  | load =>
    simp only [State.wantedStep] at h
    split at h
    · cases h; rfl
    · next l _ => cases h; unfold Load.step; split <;> rfl
    · cases h
  | order => simp only [State.wantedStep] at h; split at h <;> cases h <;> rfl
  | verify | report =>
    obtain ⟨_, _, rfl⟩ := Option.map_eq_some_iff.1 h
    rfl

/-- The load presents a step for an order in hand that is a load or LOAD CLEAR's check (R35, R42). -/
theorem wantedStep_load {s : State} {k : KsStep} (h : s.wantedStep .load = some k) :
    ∃ x, s.order.hand = some x ∧ ((∃ l, x.handling = .loading l) ∨ ∃ key, x.handling = .checking key) := by
  simp only [State.wantedStep] at h
  split at h
  · next key e => obtain ⟨x, hx, e⟩ := Option.map_eq_some_iff.1 e; exact ⟨x, hx, .inr ⟨key, e⟩⟩
  · next l e => obtain ⟨x, hx, e⟩ := Option.map_eq_some_iff.1 e; exact ⟨x, hx, .inl ⟨l, e⟩⟩
  · cases h

/-- A step that counts a use is presented for the load in hand alone (R42). -/
theorem wantedStep_counted {s : State} {u : KsUser} {k : KsStep} (h : s.wantedStep u = some k) (hc : k.counts ≠ none) :
    u = .load ∧ ∃ x l, s.order.hand = some x ∧ x.handling = .loading l := by
  constructor
  · cases u with
    | load => rfl
    | order => simp only [State.wantedStep] at h; split at h <;> cases h <;> exact absurd rfl hc
    | verify | report =>
      obtain ⟨_, _, rfl⟩ := Option.map_eq_some_iff.1 h
      exact absurd rfl hc
  · by_contra none_loads
    push Not at none_loads
    exact hc (wantedStep_counts none_loads h)

/-- The steps presented are those wanted by the users that have none outstanding (R32). -/
theorem mem_newSteps {s : State} {k : KsStep} : k ∈ s.newSteps ↔ s.outstanding k.user = false ∧ s.wantedStep k.user = some k := by
  rw [State.newSteps, List.mem_filterMap]
  constructor
  · rintro ⟨u, -, hu⟩
    split at hu
    · cases hu
    · next free =>
      rw [wantedStep_user hu]
      exact ⟨by simpa using free, hu⟩
  · rintro ⟨free, wanted⟩
    exact ⟨k.user, by cases k.user <;> decide, by rw [if_neg (by simp [free]), wanted]⟩

/-- Each user presents at most one step (R32). -/
theorem newSteps_users_nodup (s : State) : (s.newSteps.map KsStep.user).Nodup := by
  rw [State.newSteps, List.map_filterMap]
  refine List.Nodup.filterMap (fun u v w hu hv => ?_) (by decide)
  have own : ∀ x, w ∈ (if s.outstanding x then none else s.wantedStep x).map KsStep.user → w = x := by
    intro x hx
    obtain ⟨k, hk, rfl⟩ := Option.map_eq_some_iff.1 hx
    split at hk
    · cases hk
    · exact wantedStep_user hk
  rw [← own u hu, ← own v hv]

theorem presentSteps_core (s : State) :
    (presentSteps s).core = { s.core with queue := s.core.queue ++ arrange s.free s.newSteps } := rfl

/-- A user with no step outstanding has none waiting and none in progress (R32). -/
theorem not_outstanding {s : State} {u : KsUser} (h : s.outstanding u = false) :
    u ∉ s.core.queue.map KsStep.user ∧ ∀ k, s.core.work = .keyStore k false → k.user ≠ u := by
  simp only [State.outstanding, Bool.or_eq_false_iff, List.any_eq_false, decide_eq_true_eq] at h
  obtain ⟨serves, waits⟩ := h
  refine ⟨fun hm => ?_, fun k hk hu => ?_⟩
  · obtain ⟨k, hk, hu⟩ := List.mem_map.1 hm
    exact waits k hk hu
  · simp [State.coreServes, hk, hu] at serves

theorem CoreTidy.presentSteps {s : State} (h : CoreTidy s) : CoreTidy (presentSteps s) where
  users := by
    rw [presentSteps_core, List.map_append, List.nodup_append]
    refine ⟨h.users, ((arrange_perm _ _).map _).nodup_iff.2 (newSteps_users_nodup s), ?_⟩
    rintro u hu _ hv rfl
    obtain ⟨k, hk, rfl⟩ := List.mem_map.1 hv
    exact (not_outstanding (mem_newSteps.1 (mem_arrange.1 hk)).1).1 hu
  served k hk := by
    rw [presentSteps_core] at hk ⊢
    rw [List.map_append, List.mem_append, not_or]
    refine ⟨h.served k hk, fun hm => ?_⟩
    obtain ⟨j, hj, hu⟩ := List.mem_map.1 hm
    exact (not_outstanding (mem_newSteps.1 (mem_arrange.1 hj)).1).2 k hk hu.symm
  counts k hk hc := by
    rcases List.mem_append.1 hk with hk | hk
    · exact h.counts k hk hc
    · exact wantedStep_counted (mem_newSteps.1 (mem_arrange.1 hk)).2 hc
  loads k hk hu := by
    rcases List.mem_append.1 hk with hk | hk
    · exact h.loads k hk hu
    · have wanted := (mem_newSteps.1 (mem_arrange.1 hk)).2
      rw [hu] at wanted
      exact wantedStep_load wanted
  answer := h.answer

/-- What a counted use leaves of the Core and the Order Unit (R20). -/
theorem countUse_core (n : SlotNo) (s : State) : (s.countUse n).core = s.core := by
  unfold State.countUse
  simp only []
  split
  · exact lineNotices_core _ _
  · rfl

theorem countUse_order (n : SlotNo) (s : State) : (s.countUse n).order = s.order := (countUse_apart n s).order

/-- What an idle Core does (R32): it begins the Key Store side's oldest step, or the engine's, or has none to begin; the Order Unit is
as it was. -/
theorem beginStep_cases {s : State} (hw : s.core.work = .idle) :
    (beginStep s).order = s.order ∧
    ((∃ k rest, s.core.queue = k :: rest ∧ (beginStep s).core = { s.core with work := .keyStore k false, queue := rest }) ∨
      (s.core.queue = [] ∧ ∃ c, s.core.engineWaits = some c ∧
        (beginStep s).core = { s.core with work := .engine c false, engineWaits := none }) ∨
      (s.core.queue = [] ∧ s.core.engineWaits = none ∧ beginStep s = s)) := by
  unfold beginStep
  rw [if_neg (by simp [hw])]
  split
  · next k rest hq =>
    simp only []
    split
    · exact ⟨rfl, .inl ⟨k, rest, hq, rfl⟩⟩
    · split
      · exact ⟨countUse_order _ _, .inl ⟨k, rest, hq, countUse_core _ _⟩⟩
      · exact ⟨rfl, .inl ⟨k, rest, hq, rfl⟩⟩
  · next hq =>
    split
    · next he => exact ⟨rfl, .inr (.inr ⟨hq, he, rfl⟩)⟩
    · next c he => exact ⟨rfl, .inr (.inl ⟨hq, c, he, rfl⟩)⟩

/-- A step in progress goes on (R32). -/
theorem beginStep_busy {s : State} (hw : s.core.work ≠ .idle) : beginStep s = s := if_pos hw

theorem CoreTidy.beginStep {s : State} (h : CoreTidy s) : CoreTidy (beginStep s) := by
  by_cases hw : s.core.work = .idle
  · obtain ⟨ho, ⟨k, rest, hq, hc⟩ | ⟨hq, c, he, hc⟩ | ⟨hq, he, e⟩⟩ := beginStep_cases hw
    · obtain ⟨users, served, counts, loads, answer⟩ := h
      rw [hq, List.map_cons, List.nodup_cons] at users
      rw [hq] at counts loads
      refine ⟨?_, ?_, ?_, ?_, by rw [ho]; exact answer⟩ <;> rw [hc]
      · exact users.2
      · rintro j hj
        obtain ⟨rfl, -⟩ := CoreWork.keyStore.inj hj
        exact users.1
      · rw [ho]; exact fun j hj => counts j (List.mem_cons_of_mem k hj)
      · rw [ho]; exact fun j hj => loads j (List.mem_cons_of_mem k hj)
    · refine h.steady ⟨⟨?_, ?_, by rw [ho]⟩, by rw [ho]⟩ <;> rw [hc]
      exact fun j hj => (by cases hj)
    · rw [e]; exact h
  · rw [beginStep_busy hw]; exact h

theorem CoreTidy.settleCore {s : State} (h : CoreTidy s) : CoreTidy (settleCore s) := h.presentSteps.beginStep.presentSteps

theorem engineTake_steady (s : State) : Steady s (engineTake s) := (engineTake_apart s).steady

theorem CoreTidy.settleUnit {s : State} (h : CoreTidy s) : CoreTidy (settleUnit s) := (h.steady (engineTake_steady s)).settleCore

end Sys2Proof.Machine
end

section
/-! Proofs. What each operation does to the Core's steps, the order in hand and the answer slot: nothing, for all but a zeroisation,
which gives up the step of the order in hand (R27, R140). -/

namespace Sys2Proof.Machine

/-! ### Runs, records and cards -/

/-- The record in the engine is given up: a step of the engine's is discarded, and the Key Store side's are as they were (R33, R96). -/
theorem abortRecord_steady (s : State) : Steady s (abortRecord s) := by
  have discarded : Steady s s.discardEngineStep := by
    refine ⟨⟨.refl _, fun k hk => ?_, rfl⟩, rfl⟩
    simp only [State.discardEngineStep] at hk
    split at hk
    · cases hk
    · exact hk
  unfold abortRecord
  split
  · exact .refl s
  · exact discarded.trans (failRecord_apart _ _ _).steady

theorem changeRun_steady (n : Word) (f : Run → Run) {tell : Run → State → State} (ht : ∀ r t, Steady t (tell r t)) (s : State) :
    Steady s (s.changeRun n f tell) := by
  unfold State.changeRun
  simp only []
  split
  · exact .of_eq rfl rfl
  · exact (ht _ _).after rfl rfl

theorem progressTest_steady (n : Word) (s : State) : Steady s (progressTest n s) := by
  unfold progressTest
  split
  · exact .refl s
  · exact ite_steady (changeRun_steady n _ (fun _ t => offer_steady _ _ _ t) s) (.refl s)

/-- The books of a run that a spoil closes (R52, R56, R64, R67). -/
theorem closeSpoil_steady (n : Word) (fourth : Prop) [Decidable fourth] (s : State) :
    Steady s (closeTest n (if fourth then advanceRun n (s.updateRun n Run.overspoilTest) else s.updateRun n Run.overspoilTest)) := by
  have advanced : ∀ t : State, Steady t (if fourth then advanceRun n t else t) :=
    fun t => ite_steady (advanceRun_apart n t).steady (.refl t)
  exact ((advanced _).trans (closeTest_apart n _).steady).after rfl rfl

theorem settle_steady (l : LineNo) (n : Word) (o : Nat) (seq : Word) (p : Position) (res : CardResult) (s : State) :
    Steady s (settle l n o seq p res s) := by
  unfold settle
  have spoiled : ∀ t : State, Steady t (if p.attempt = 4 then offerCard .voided n seq l (byteOf p.attempt) t else t) :=
    fun t => ite_steady (offer_steady _ _ _ t) (.refl t)
  cases res with
  | done => exact ((progressTest_steady n _).trans ((advanceRun_apart n _).trans (closeTest_apart n _)).steady).after rfl rfl
  | spoiled | rejected => exact ((spoiled _).trans (closeSpoil_steady n (p.attempt = 4) _)).after rfl rfl

/-- Outcomes touch runs, lines and notices alone (R64 to R66). -/
theorem takeOutcome_steady (l : LineNo) (n seq : Word) (res : CardResult) (s : State) : Steady s (takeOutcome l n seq res s) := by
  have stray : Steady s (strayOutcome l n seq res s) := (offer_steady _ _ _ _).after rfl rfl
  have late : Steady s (lateOutcome l n seq res s) := (offer_steady _ _ _ _).after rfl rfl
  unfold takeOutcome
  split
  · exact stray
  · split
    · exact stray
    · exact ite_steady (settle_steady l n _ seq _ res s) (ite_steady late stray)

theorem lapsePosition_steady (l : LineNo) (n : Word) (o : Nat) (seq : Word) (p : Position) (s : State) :
    Steady s (lapsePosition l n o seq p s) := by
  unfold lapsePosition
  simp only []
  generalize hu : State.updateRun (State.setLine s l _) n _ = u
  have books : Steady s u := by rw [← hu]; exact .of_eq rfl rfl
  have told : Steady u (offerCard .lapsed n seq l (byteOf p.attempt) u) := offer_steady _ _ _ u
  refine books.trans (told.trans ?_)
  generalize offerCard .lapsed n seq l (byteOf p.attempt) u = v
  have voided : Steady v (if p.attempt = 4 then offerCard .voided n seq l (byteOf p.attempt) v else v) :=
    ite_steady (offer_steady _ _ _ v) (.refl v)
  exact voided.trans ((lineNotices_only s _).steady.trans (closeSpoil_steady n _ _))

/-- Admission decides a record without the Core (R57). -/
theorem admitRecord_steady (frame : Bytes) (s : State) : Steady s (admitRecord frame s) := by
  have refused : ∀ n seq reason, Steady s (offerRefusal n seq reason s) := fun n seq reason => offer_steady _ _ _ s
  unfold admitRecord
  simp only []
  split
  · exact refused _ _ _
  · split
    · exact ite_steady (refused _ _ _) (.of_eq rfl rfl)
    · split
      · exact refused _ _ _
      · split
        · exact .of_eq rfl rfl
        · exact (refused _ _ _).trans (.of_eq rfl rfl)
        · exact refused _ _ _

theorem startIdle_steady (s : State) : Steady s s.startIdle := .of_eq (startIdle_core s) (startIdle_order s)

theorem takeRecordFrame_steady (frame : Bytes) (s : State) : Steady s (takeRecordFrame frame s) :=
  ite_steady (admitRecord_steady frame s) ((startIdle_steady s).trans (admitRecord_steady frame _))

theorem withdrawRun_steady (n : Word) (s : State) : Steady s (withdrawRun n s) := by
  unfold withdrawRun
  simp only []
  refine Steady.after (foldl_steady (fun t x => ?_) _ _) rfl rfl
  exact (offer_steady _ _ _ _).after rfl rfl

/-! ### The store's own operations -/

theorem emptyGate_steady (s : State) : Steady s s.emptyGate := ⟨⟨.refl _, fun _ h => h, rfl⟩, rfl⟩

theorem lapseAssembly_steady (n : SlotNo) (s : State) : Steady s (lapseAssembly n s) := (offer_steady _ _ _ _).after rfl rfl

theorem lapseAssemblies_steady (s : State) : Steady s (lapseAssemblies s) :=
  foldl_steady (fun t n => ite_steady (lapseAssembly_steady n t) (.refl t)) _ s

theorem visitFrom_steady (c : VerifyCause) (d start : Nat) (s : State) : Steady s (visitFrom c d start s) :=
  .of_eq (visitFrom_core c d start s) (visitFrom_order c d start s)

theorem releaseVerify_steady (s : State) : Steady s (releaseVerify s) := .of_eq (releaseVerify_core s) (releaseVerify_order s)

theorem verifySlot_steady (v : Verify) (x : Block) (s : State) : Steady s (verifySlot v x s) :=
  ite_steady (visitFrom_steady _ _ _ s)
    ((Steady.of_eq (damageSlot_core _ s) (damageSlot_order _ s)).trans (visitFrom_steady _ _ _ _))

theorem endLoad_order (l : Load) (v : Block) (s : State) : (endLoad l v s).2.order = s.order := by
  unfold endLoad activate offerActive offerKey
  split
  · rfl
  · split
    · rfl
    · split
      · simp
      · rfl
    · split
      · simp
      · rfl
    · rfl

theorem lateLapse_steady (l : Load) (s : State) : Steady s (lateLapse l s) := by
  unfold lateLapse
  split
  · exact ite_steady (lapseAssembly_steady _ s) (.refl s)
  · exact .refl s

/-! ### Zeroisation and trips -/

/-- The Key Store side has no step that it had not, the answer slot is as it was, and a tidy Core stays tidy, the order in hand with
it. -/
structure Orderly (s t : State) : Prop extends Sheds s t where
  tidy : CoreTidy s → CoreTidy t

theorem Steady.orderly {s t : State} (h : Steady s t) : Orderly s t := ⟨h.toSheds, fun k => k.steady h⟩

theorem Orderly.refl (s : State) : Orderly s s := (Steady.refl s).orderly

theorem Orderly.trans {s t u : State} (h : Orderly s t) (k : Orderly t u) : Orderly s u :=
  ⟨h.toSheds.trans k.toSheds, fun x => k.tidy (h.tidy x)⟩

/-- What comes after an operation that keeps the Core and the Order Unit is judged from where it began. -/
theorem Orderly.after {s t u : State} (h : Orderly t u) (hc : t.core = s.core) (ho : t.order = s.order) : Orderly s u :=
  (Steady.orderly (.of_eq hc ho)).trans h

theorem ite_orderly {c : Prop} [Decidable c] {s t u : State} (ht : Orderly s t) (hu : Orderly s u) :
    Orderly s (if c then t else u) := by
  split
  exacts [ht, hu]

/-- A user's steps are given up (R33). -/
theorem discardUser_steady (s : State) (u : KsUser) : Steady s (s.discardUser u) := by
  refine ⟨⟨List.filter_sublist, fun k hk => ?_, rfl⟩, rfl⟩
  simp only [State.discardUser] at hk
  split at hk
  · next j d hw =>
    obtain ⟨rfl, hd⟩ := CoreWork.keyStore.inj hk
    rw [hw, (Bool.or_eq_false_iff.1 hd).1]
  · exact hk

theorem discardUser_waits {s : State} {u : KsUser} {k : KsStep} (h : k ∈ (s.discardUser u).core.queue) : k.user ≠ u :=
  of_decide_eq_true (List.mem_filter.1 h).2

/-- The unit at a zeroisation with the step of the order in hand given up (R27, R140). -/
def State.dropOrderStep (s : State) : State :=
  match s.order.hand.map OrderInHand.handling with
  | some (.comparing _ _) => s.discardUser .order
  | some (.checking _) => s.discardUser .load
  | _ => s

theorem zeroiseOrder_eq (s : State) :
    zeroiseOrder s =
      { s.dropOrderStep.emptyGate with
        order := { s.dropOrderStep.emptyGate.order with
          hand := s.dropOrderStep.emptyGate.order.hand.map OrderInHand.afterZeroise } } := rfl

theorem dropOrderStep_steady (s : State) : Steady s s.dropOrderStep := by
  unfold State.dropOrderStep
  split
  exacts [discardUser_steady s _, discardUser_steady s _, .refl s]

/-- The check of a LOAD CLEAR in hand waits no more (R140). -/
theorem dropOrderStep_no_check {s : State} {x : OrderInHand} {key : Block} (hx : s.order.hand = some x)
    (he : x.handling = .checking key) : ∀ k ∈ s.dropOrderStep.core.queue, k.user ≠ .load := by
  intro k hk
  simp only [State.dropOrderStep, hx, Option.map_some, he] at hk
  exact discardUser_waits hk

/-- The Order Unit at a zeroisation: a check of LOAD CLEAR leaves the queue with its order's hand-over, and a load stays in hand (R42,
R140). -/
theorem zeroiseOrder_orderly (s : State) : Orderly s (zeroiseOrder s) := by
  have dropped := dropOrderStep_steady s
  rw [zeroiseOrder_eq]
  refine ⟨⟨dropped.queue, dropped.served, dropped.answer⟩, fun h => ?_⟩
  have tidy := h.steady dropped
  refine ⟨tidy.users, tidy.served, fun k hk hc => ?_, fun k hk hu => ?_, fun ha => ?_⟩
  · obtain ⟨hu, x, l, hx, e⟩ := tidy.counts k hk hc
    exact ⟨hu, x.afterZeroise, { l with zeroised := true }, by simp [hx], by simp [OrderInHand.afterZeroise, e]⟩
  · obtain ⟨x, hx, ⟨l, e⟩ | ⟨key, e⟩⟩ := tidy.loads k hk hu
    · exact ⟨x.afterZeroise, by simp [hx], .inl ⟨{ l with zeroised := true }, by simp [OrderInHand.afterZeroise, e]⟩⟩
    · exact absurd hu (dropOrderStep_no_check (dropped.hand.symm.trans hx) e k hk)
  · obtain ⟨x, hx, e⟩ := tidy.answer ha
    exact ⟨x.afterZeroise, by simp [hx], by simp [OrderInHand.afterZeroise, e]⟩

theorem markBattery_steady (s : State) : Steady s (markBattery s) := ite_steady (.of_eq rfl rfl) (.refl s)

theorem zeroise_orderly (s : State) : Orderly s (zeroise s) := by
  have stored : Steady (zeroiseOrder s) (zeroiseStore (zeroiseOrder s)) :=
    (discardUser_steady _ .verify).trans (.of_eq rfl rfl)
  have marked : Steady (zeroiseStore (zeroiseOrder s)) (markBattery ((zeroiseStore (zeroiseOrder s)).setCustody .zeroised)) :=
    (markBattery_steady _).after rfl rfl
  refine (zeroiseOrder_orderly s).trans (Steady.orderly ?_)
  refine (stored.trans marked).trans ?_
  unfold zeroise
  simp only []
  rw [reportZeroised_only]
  exact ((lineNotices_only s _).steady.trans (abortRecord_steady _)).after rfl rfl

theorem applyAction_orderly (i : SensorNo) (s : State) : Orderly s (applyAction i s) := by
  have tripped : Steady s (s.setSensor i (s.sensor i).tripped) := .of_eq rfl rfl
  unfold applyAction
  simp only []
  split
  · exact ite_orderly (Steady.orderly (.of_eq rfl rfl)) (tripped.orderly.trans (zeroise_orderly _))
  · exact Steady.orderly ((abortRecord_steady _).after rfl rfl)

theorem countBatteryTrip_steady (s : State) : Steady s s.countBatteryTrip := ite_steady (.of_eq rfl rfl) (.refl s)

theorem trip_orderly (i : SensorNo) (s : State) : Orderly s (trip i s) := by
  have counted : Steady s (s.enterTamper (.sensor i) (s.sensor i).action).countBatteryTrip :=
    (countBatteryTrip_steady _).after rfl rfl
  exact ((counted.trans (emptyGate_steady _)).trans (offer_steady _ _ _ _)).orderly.trans (applyAction_orderly i _)

theorem considerSensor_orderly (i : SensorNo) (s : State) : Orderly s (considerSensor i s) :=
  ite_orderly (ite_orderly (trip_orderly i s) (Steady.orderly (.of_eq rfl rfl))) (.refl s)

theorem closeWindow_orderly (s : State) : Orderly s (closeWindow s) :=
  (considerSensor_orderly 0 _).after rfl rfl

theorem releaseSensor_steady (i : SensorNo) (s : State) : Steady s (releaseSensor i s) := .of_eq rfl rfl

theorem releaseLatched_steady (s : State) : Steady s (releaseLatched s) :=
  foldl_steady (fun t i => ite_steady (releaseSensor_steady i t) (.refl t)) _ s

theorem reconfigured_orderly (i : SensorNo) (s : State) : Orderly s (reconfigured i s) := by
  unfold reconfigured
  split
  · exact considerSensor_orderly i s
  · exact (considerSensor_orderly i _).after rfl rfl
  · exact ite_orderly (.refl s) (releaseSensor_steady i s).orderly
  · exact .refl s

end Sys2Proof.Machine
end

section
/-! Proofs. An order's decision keeps the Core tidy: when it falls due no step of a load waits, and no order's own rule gives the Key
Store side a step (R32, R42, R138 to R141). -/

namespace Sys2Proof.Machine

/-! ### The orders' own rules -/

theorem checked_orderly {α : Type} {e : Except OrderResult α} {s : State} {k : α → Taken} (h : ∀ a, Orderly s (k a).left) :
    Orderly s (checked e s k).left := by
  cases e with
  | error => exact .refl s
  | ok a => exact h a

/-- A rule whose checks, once passed, leave the Core and the Order Unit as they were. -/
theorem checked_orderly_of_steady {α : Type} {e : Except OrderResult α} {s : State} {k : α → Taken} (h : ∀ a, Steady s (k a).left) :
    Orderly s (checked e s k).left := checked_orderly fun a => (h a).orderly

/-- An order that is answered leaves the unit its rule gives. -/
theorem Steady.answered {s t : State} (h : Steady s t) {r : OrderResult} {v : Bytes} : Steady s (Taken.answered r v t).left := h

/-- The takes that an order makes possible follow its effect (R91). -/
theorem Steady.taking {s t : State} (h : Steady s t) : Steady s (engineTake t) := h.trans (engineTake_steady t)

/-- The LINE notices of an order follow its effect (R101). -/
theorem Steady.telling {s t : State} (h : Steady s t) : Steady s (lineNotices s t) := h.trans (lineNotices_only s t).steady

theorem loadComponent_orderly (a : OrderArgs) (s : State) : Orderly s (takeLoadComponent a s).left := by
  refine checked_orderly_of_steady fun p => ?_
  split
  · exact offer_steady _ _ _ s
  · split <;> exact .refl s

theorem loadWrapped_orderly (a : OrderArgs) (s : State) : Orderly s (takeLoadWrapped a s).left := by
  refine checked_orderly_of_steady fun p => ?_
  split
  exacts [offer_steady _ _ _ s, .refl s]

theorem commission_orderly (contact : Bool) (a : OrderArgs) (s : State) : Orderly s (takeCommission contact a s).left := by
  refine checked_orderly_of_steady fun _ => Steady.taking ?_
  exact (startIdle_steady _).after rfl rfl

theorem closeRun_orderly (a : OrderArgs) (s : State) : Orderly s (takeCloseRun a s).left := by
  refine checked_orderly_of_steady fun r => ?_
  split
  · exact .refl s
  · exact ((withdrawRun_steady _ _).trans (closeTest_apart _ _).steady).after rfl rfl

theorem takeZeroise_orderly (a : OrderArgs) (s : State) : Orderly s (takeZeroise a s).left := by
  refine Orderly.trans (Steady.orderly ?_) (zeroise_orderly _)
  exact (offer_steady _ _ _ _).after rfl rfl

theorem ackTamper_orderly (contact : Bool) (a : OrderArgs) (s : State) : Orderly s (takeAckTamper contact a s).left := by
  have cleared : Steady s ((clearRecord s).setCustody .factory) := .of_eq rfl rfl
  refine checked_orderly_of_steady fun _ => ?_
  split
  · exact (cleared.trans (releaseLatched_steady _)).answered
  · exact .of_eq rfl rfl

theorem setSensor_orderly (a : OrderArgs) (s : State) : Orderly s (takeSetSensor a s).left := by
  refine checked_orderly fun p => Orderly.trans ?_ (engineTake_steady _).orderly
  exact (reconfigured_orderly p.1 _).after rfl rfl

theorem openWindow_steady (ms : Nat) (s : State) : Steady s (openWindow ms s) := by
  unfold openWindow
  exact ite_steady (.of_eq rfl rfl) (.of_eq rfl rfl)

theorem setIdleLimit_steady (n : Nat) (s : State) : Steady s (s.setIdleLimit n) := by
  unfold State.setIdleLimit
  exact ite_steady (.of_eq rfl rfl) ((startIdle_steady _).after rfl rfl)

/-- No order's own rule gives the Key Store side a step; a zeroisation, ordered or by a sensor that an order sets off, gives up the
step of the order in hand (R27, R140). -/
theorem orderRule_orderly {i : Instr} {rule : OrderRule} (h : orderRule i = some rule) (a : OrderArgs) (s : State) :
    Orderly s (rule.take a s).left := by
  cases i <;> cases h
  case status => exact checked_orderly_of_steady fun c => by cases c <;> exact .of_eq rfl rfl
  case grant => exact checked_orderly_of_steady fun _ => ⟨⟨.refl _, fun _ e => e, rfl⟩, rfl⟩
  case loadComponent => exact loadComponent_orderly a s
  case loadWrappedKey => exact loadWrapped_orderly a s
  case commission => exact commission_orderly _ a s
  case retireSlot => exact checked_orderly_of_steady fun _ => Steady.telling (.of_eq rfl rfl)
  case setCeiling => exact checked_orderly_of_steady fun _ => Steady.taking (.telling (.of_eq rfl rfl))
  case wake => exact checked_orderly_of_steady fun _ => visitFrom_steady _ _ _ s
  case zeroise => exact takeZeroise_orderly a s
  case ackTamper => exact ackTamper_orderly _ a s
  case releaseRun => exact checked_orderly_of_steady fun _ => Steady.taking (.of_eq rfl rfl)
  case addAllowance => exact checked_orderly_of_steady fun _ => Steady.taking (.of_eq rfl rfl)
  case closeRun => exact closeRun_orderly a s
  case writeOffCard => exact checked_orderly_of_steady fun _ => (advanceRun_apart _ _).steady.after rfl rfl
  case setLine => exact checked_orderly_of_steady fun _ => Steady.taking (.telling (.of_eq rfl rfl))
  case setGroupMembers => exact checked_orderly_of_steady fun _ => Steady.taking (.of_eq rfl rfl)
  case setGroupKey => exact checked_orderly_of_steady fun _ => Steady.taking (.telling (.of_eq rfl rfl))
  case setGroupCredit => exact checked_orderly_of_steady fun _ => Steady.taking (.of_eq rfl rfl)
  case barLine => exact checked_orderly_of_steady fun _ => Steady.telling (.of_eq rfl rfl)
  case unbarLine => exact checked_orderly_of_steady fun _ => Steady.taking (.telling (.of_eq rfl rfl))
  case clearLine => exact checked_orderly_of_steady fun _ => Steady.taking (.telling (.of_eq rfl rfl))
  case productionOn => exact Steady.orderly (.taking (.telling (.of_eq rfl rfl)))
  case productionOff => exact Steady.orderly (.of_eq rfl rfl)
  case setSensor => exact setSensor_orderly a s
  case resume => exact checked_orderly_of_steady fun _ => (releaseLatched_steady s).taking.answered
  case openCabinet => exact checked_orderly_of_steady fun _ => (openWindow_steady _ s).answered
  case closeCabinet =>
    show Orderly s (if _ then _ else _)
    exact ite_orderly (closeWindow_orderly s) (.refl s)
  case readTamperRecord => exact .refl s
  case readLinkErrors => exact Steady.orderly (.of_eq rfl rfl)
  case setTime => exact Steady.orderly (.of_eq rfl rfl)
  case setAlarmMask => exact Steady.orderly (.of_eq rfl rfl)
  case setIdleLimit => exact (setIdleLimit_steady _ s).orderly
  case unknownOrderCode => exact .refl s
  all_goals exact checked_orderly_of_steady fun _ => .of_eq rfl rfl

/-! ### The decision -/

theorem endDecisionStep_steady (s : State) (h : OrderInHand) : Steady s (s.endDecisionStep h) := by
  unfold State.endDecisionStep
  split
  exacts [endStep_steady s, endStep_steady s, .refl s]

/-- An order stands only while it is neither a load nor answered, and a LOAD CLEAR at the end of its check's step (R35, R137, R141). -/
theorem standing_due {s : State} {h : OrderInHand} {st : Standing} (hs : s.standing h = some st) :
    (∀ l, h.handling ≠ .loading l) ∧ h.handling ≠ .answered ∧ ∀ key, h.handling = .checking key → s.coreServes .load = true := by
  unfold State.standing at hs
  cases e : h.handling <;> simp only [e] at hs <;> simp_all

/-- When an order's decision falls due no step of a load waits, and the answer slot is empty (R32, R42, R137). -/
theorem CoreTidy.unladen_of_standing {s : State} {h : OrderInHand} {st : Standing} (ht : CoreTidy s) (hh : s.order.hand = some h)
    (hs : s.standing h = some st) : Unladen s := by
  obtain ⟨loads, answered, checks⟩ := standing_due hs
  refine ht.unladen ?_ fun x hx => ?_
  · by_cases hc : ∃ key, h.handling = .checking key
    · exact ht.no_loads_served (checks _ hc.choose_spec)
    · exact ht.no_loads hh loads (not_exists.1 hc)
  · obtain rfl : h = x := Option.some.inj (hh.symm.trans hx)
    exact answered

theorem Unladen.buildAnswer {s : State} (hs : Unladen s) (h : OrderInHand) (r : OrderResult) (v : Bytes) (z : Bool) :
    CoreTidy (buildAnswer h r v z s) := by
  refine hs.tidy (buildAnswer_queue h r v z s) ?_
  unfold Machine.buildAnswer
  simp only []
  split
  · exact .inr ⟨_, rfl, rfl⟩
  · exact .inl hs.answer

/-- The order in hand is answered, or waits for its load (R42, R151). -/
theorem afterTake_tidy {x : Taken} (hx : Unladen x.left) (h : OrderInHand) : CoreTidy (afterTake h x) := by
  cases x with
  | answered r v s => exact hx.buildAnswer h r v false
  | held l s => exact hx.tidy rfl (.inl hx.answer)

theorem dealWithGate_sheds (c : OrderClass) (x : Taken) : Sheds x.left (dealWithGate c x).left := by
  cases x with
  | answered r v s => exact (ite_steady (.refl s) (emptyGate_steady s)).toSheds
  | held l s => exact (emptyGate_steady s).toSheds

theorem broadcastIdle_sheds (x : Taken) : Sheds x.left (broadcastIdle x).left := by
  cases x with
  | answered r v s => exact (ite_steady (startIdle_steady s) (.refl s)).toSheds
  | held l s => exact .refl s

theorem checked_sheds {α : Type} {e : Except OrderResult α} {s : State} {k : α → Taken} (h : ∀ a, Sheds s (k a).left) :
    Sheds s (checked e s k).left := by
  cases e with
  | error => exact .refl s
  | ok a => exact h a

/-- The event of an order's row keeps the Core tidy, whichever way the order stands (R138 to R141, R150). -/
theorem CoreTidy.decideOrder {rule : OrderRule} {s : State} (hs : CoreTidy s) (hr : ∀ a t, Sheds t (rule.take a t).left) :
    CoreTidy (decideOrder rule s) := by
  unfold Machine.decideOrder
  split
  · exact hs
  · next h hh =>
    simp only []
    split
    · exact hs
    · have ht : ∀ st, s.standing h = some st → Unladen (s.endDecisionStep h) := fun st e =>
        (hs.unladen_of_standing hh e).sheds (endDecisionStep_steady s h).toSheds
      generalize s.endDecisionStep h = t at ht
      have recorded : Steady t ({ t with store := { t.store with lastOrder := h.number } }).startIdle :=
        (startIdle_steady _).after rfl rfl
      have taggedBad : Steady t t.flagTag := .of_eq rfl rfl
      have numberedBad : Steady t t.flagNumber := .of_eq rfl rfl
      split
      · exact hs
      · next e => exact (((ht _ e).sheds taggedBad.toSheds).buildAnswer h _ _ _).settleCore
      · next e => exact (((ht _ e).sheds numberedBad.toSheds).buildAnswer h _ _ _).settleCore
      · next e =>
        exact (afterTake_tidy ((ht _ e).sheds (checked_sheds fun _ => (hr _ t).trans (broadcastIdle_sheds _))) h).settleCore
      · next e => exact (afterTake_tidy ((ht _ e).sheds (checked_sheds fun _ => hr _ t)) h).settleCore
      · next e =>
        refine (afterTake_tidy ((ht _ e).sheds (recorded.toSheds.trans ?_)) h).settleCore
        exact (checked_sheds fun _ => hr _ _).trans (dealWithGate_sheds _ _)

end Sys2Proof.Machine
end

section
/-! Proofs. Every command keeps the Core tidy (R32, R35, R42). -/

namespace Sys2Proof.Machine

/-- A command's outcome has a tidy Core. -/
def EndsTidy (o : Host.Outcome State Fault Refusal) : Prop := ∀ t, o = .next t → CoreTidy t

theorem endsTidy_next {t : State} (h : CoreTidy t) : EndsTidy (.next t) := by
  rintro _ ⟨⟩; exact h

theorem endsTidy_ite {c : Prop} [Decidable c] {x y : Host.Outcome State Fault Refusal} (hx : c → EndsTidy x) (hy : EndsTidy y) :
    EndsTidy (if c then x else y) := by
  split
  exacts [hx ‹c›, hy]

/-- An event that keeps the Core and the Order Unit. -/
theorem CoreTidy.ends_eq {s t : State} (h : CoreTidy s) (hc : t.core = s.core) (ho : t.order = s.order) : EndsTidy (.next t) :=
  endsTidy_next (h.steady (.of_eq hc ho))

/-- An event that ends with the sharing of the Core (R32). -/
theorem CoreTidy.ends_settled {s t : State} (h : CoreTidy s) (k : Orderly s t) : EndsTidy (.next (Machine.settleCore t)) :=
  endsTidy_next (k.tidy h).settleCore

/-- An event that ends with the engine's takes and the sharing of the Core (R32, R91). -/
theorem CoreTidy.ends_taken {s t : State} (h : CoreTidy s) (k : Steady s t) : EndsTidy (.next (Machine.settleUnit t)) :=
  endsTidy_next (h.steady k).settleUnit

/-- With no order in hand no step of a load waits, and the answer slot is empty (R35, R42, R137). -/
theorem CoreTidy.unladen_of_no_order {s : State} (h : CoreTidy s) (hn : s.order.hand = none) : Unladen s := by
  refine h.unladen (fun k hk hu => ?_) fun x hx => by rw [hn] at hx; cases hx
  obtain ⟨x, hx, -⟩ := h.loads k hk hu
  rw [hn] at hx; cases hx

/-! ### Frames that arrive -/

theorem Unladen.hold {s : State} (h : Unladen s) (x : OrderInHand) : CoreTidy (s.hold x) := h.tidy rfl (.inl h.answer)

/-- An order comes into hand (R137, R138, R141, R150). -/
theorem Unladen.handOver {s : State} (h : Unladen s) (frame : Bytes) (b : Bool) : CoreTidy (handOver frame b s) := by
  have untagged : ∀ x, CoreTidy (handUntagged x s) := by
    intro x
    unfold handUntagged
    split
    exacts [h.buildAnswer x _ _ _, h.hold _]
  unfold Machine.handOver
  simp only []
  split
  · exact h.hold _
  · split
    exacts [untagged _, untagged _, h.hold _, h.hold _]

theorem classifyOrder_tidy {s : State} (hs : CoreTidy s) (hn : s.order.hand = none) (frame : Bytes) :
    CoreTidy (classifyOrder frame s) := by
  have unladen := hs.unladen_of_no_order hn
  have passed : Steady s (s.passOnward frame) := .of_eq rfl rfl
  unfold classifyOrder
  split
  · exact (unladen.handOver frame false).settleCore
  · split
    · refine (Unladen.handOver ?_ frame true).settleCore
      split
      exacts [unladen, unladen.sheds passed.toSheds]
    · exact hs.steady passed

theorem flagUp_steady (s : State) (f : UpFault) : Steady s (s.flagUp f) := by
  cases f <;> exact .of_eq rfl rfl

/-! ### Two facts of an order in hand -/

/-- The next handling of an order in hand is of the kind it was, and none for one that is answered or checked (R32). -/
theorem nextHandling_kind {s : State} {v : Block} {x y : Handling} (h : nextHandling s v x = some y) :
    x ≠ .answered ∧ (∀ key, x ≠ .checking key) ∧ ∀ l, x = .loading l → ∃ m, y = .loading m := by
  unfold nextHandling at h
  split at h
  case h_1 | h_2 => simp
  case h_3 l =>
    split at h
    · cases h
    · cases h; simp
  all_goals cases h

/-- The source the arbiter chooses has a frame waiting (R131). -/
theorem waitingFrame_of_choice {s : State} {src : Source} {f : Bytes} (h : s.upstreamChoice = some (src, f)) :
    s.waitingFrame src = some f := by
  obtain ⟨x, -, hx⟩ := List.exists_of_findSome?_eq_some h
  obtain ⟨g, hg, e⟩ := Option.map_eq_some_iff.1 hx
  cases e
  exact hg

section
variable {s : State} (hs : CoreTidy s)
include hs

theorem execOrderFrame_endsTidy (frame : Bytes) : EndsTidy (execOrderFrame frame s) := by
  unfold execOrderFrame
  split
  · exact endsTidy_next hs
  · next ready =>
    have free : s.order.hand = none := by
      simp only [State.receivesUp, State.upstreamReady, Bool.not_eq_true', Bool.not_eq_false, Bool.and_eq_true,
        Option.isNone_iff_eq_none] at ready
      exact ready.2.2
    split
    · exact endsTidy_next (hs.steady (flagUp_steady s _))
    · exact endsTidy_ite (fun _ => endsTidy_next (classifyOrder_tidy hs free frame)) (endsTidy_next hs)

theorem execRecord_endsTidy (frame : Bytes) : EndsTidy (execRecord frame s) := by
  unfold execRecord
  refine endsTidy_ite (fun _ => endsTidy_next hs) ?_
  split
  · exact endsTidy_next (hs.steady (flagUp_steady s _))
  · exact endsTidy_ite (fun _ => hs.ends_taken (takeRecordFrame_steady frame s)) (endsTidy_next hs)

theorem execUpstreamFrameError_endsTidy (frame : Bytes) : EndsTidy (execUpstreamFrameError frame s) := by
  unfold execUpstreamFrameError
  refine endsTidy_ite (fun _ => endsTidy_next hs) ?_
  split
  exacts [endsTidy_next (hs.steady (flagUp_steady s _)), endsTidy_next hs]

theorem execRelayFrame_endsTidy (frame : Bytes) : EndsTidy (execRelayFrame frame s) :=
  endsTidy_ite (fun _ => endsTidy_next hs) (endsTidy_ite (fun _ => hs.ends_eq rfl rfl) (endsTidy_ite (fun _ => hs.ends_eq rfl rfl)
    (endsTidy_ite (fun _ => hs.ends_eq rfl rfl) (hs.ends_eq rfl rfl))))

theorem execOutcome_endsTidy (l : LineNo) (frame : Bytes) : EndsTidy (execOutcome l frame s) := by
  unfold execOutcome
  refine endsTidy_ite (fun _ => endsTidy_next hs) ?_
  split
  exacts [hs.ends_eq rfl rfl, hs.ends_taken (takeOutcome_steady _ _ _ _ s)]

/-! ### The ends of cipher steps -/

theorem execEngineCipherStep_endsTidy : EndsTidy (execEngineCipherStep s) := by
  have ended := endStep_steady s
  unfold execEngineCipherStep
  split
  · split
    · exact hs.ends_settled ended.orderly
    · exact hs.ends_taken (ended.trans ((resume_apart _ _ _).trans (endWalk_apart _)).steady)
  · exact hs.ends_settled ended.orderly
  · exact endsTidy_next hs

/-- A load ends with the step the Core serves it, so no other of its steps waits (R42). -/
theorem execLoadUnwrapEnd_endsTidy : EndsTidy (execLoadUnwrapEnd s) := by
  unfold execLoadUnwrapEnd
  split
  · exact endsTidy_next hs
  · next h hh =>
    split
    · next l hl =>
      refine endsTidy_ite (fun serves => endsTidy_next (CoreTidy.settleCore ?_)) (endsTidy_next hs)
      have unladen : Unladen s := hs.unladen (hs.no_loads_served (Bool.and_eq_true_iff.1 serves).1) fun x hx => by
        obtain rfl : h = x := Option.some.inj (hh.symm.trans hx)
        rw [hl]; exact Handling.noConfusion
      have loaded : Steady s (endLoad l s.coreResult s.endStep).2 :=
        (endStep_steady s).trans (.of_eq (endLoad_core l _ _) (endLoad_order l _ _))
      exact (unladen.sheds (loaded.trans (lateLapse_steady l _)).taking.toSheds).buildAnswer h _ [] false
    · exact endsTidy_next hs

theorem setHandling_tidy {v : Block} {h : OrderInHand} {y : Handling} (hh : s.order.hand = some h)
    (hy : nextHandling s v h.handling = some y) : CoreTidy (s.setHandling fun _ => y) := by
  obtain ⟨unanswered, unchecked, loads⟩ := nextHandling_kind hy
  have hand : (s.setHandling fun _ => y).order.hand = some { h with handling := y } := by simp [State.setHandling, hh]
  refine ⟨hs.users, hs.served, fun k hk hc => ?_, fun k hk hu => ?_, fun ha => ?_⟩
  · obtain ⟨hu, x, l, hx, e⟩ := hs.counts k hk hc
    obtain rfl : h = x := Option.some.inj (hh.symm.trans hx)
    obtain ⟨m, hm⟩ := loads l e
    exact ⟨hu, _, m, hand, hm⟩
  · obtain ⟨x, hx, ⟨l, e⟩ | ⟨key, e⟩⟩ := hs.loads k hk hu <;> obtain rfl : h = x := Option.some.inj (hh.symm.trans hx)
    · exact ⟨_, hand, .inl (loads l e)⟩
    · exact absurd e (unchecked key)
  · obtain ⟨x, hx, e⟩ := hs.answer ha
    obtain rfl : h = x := Option.some.inj (hh.symm.trans hx)
    exact absurd e unanswered

theorem stepKeyStoreSide_tidy {t : State} {u : KsUser} {v : Block} (ht : stepKeyStoreSide u v s = some t) : CoreTidy t := by
  have of_hand : (match s.order.hand with
      | none => some s
      | some h => (nextHandling s v h.handling).map fun x => s.setHandling fun _ => x) = some t → CoreTidy t := by
    intro ht
    cases hh : s.order.hand with
    | none => rw [hh] at ht; obtain rfl := Option.some.inj ht; exact hs
    | some h =>
      rw [hh] at ht
      obtain ⟨y, hy, rfl⟩ := Option.map_eq_some_iff.1 ht
      exact setHandling_tidy hs hh hy
  unfold stepKeyStoreSide at ht
  cases u with
  | verify =>
    dsimp only at ht
    split at ht
    · cases ht
    · obtain rfl := Option.some.inj ht; exact hs
  | report =>
    dsimp only at ht
    split at ht
    · obtain rfl := Option.some.inj ht; exact hs
    · split at ht
      · cases ht
      · obtain rfl := Option.some.inj ht; exact hs.steady (.of_eq rfl rfl)
  | order => exact of_hand ht
  | load => exact of_hand ht

theorem execKeyStoreSideCipherStep_endsTidy : EndsTidy (execKeyStoreSideCipherStep s) := by
  have ended := endStep_steady s
  unfold execKeyStoreSideCipherStep
  split
  · exact hs.ends_settled ended.orderly
  · split
    · exact endsTidy_next hs
    · next ht => exact endsTidy_next (stepKeyStoreSide_tidy (hs.steady ended) ht).settleCore
  · exact endsTidy_next hs

/-- An answer enters the slot for an order that has been decided, for which no load's step waits (R42, R151). -/
theorem execAnswerBuilt_endsTidy : EndsTidy (execAnswerBuilt s) := by
  unfold execAnswerBuilt
  split
  · exact endsTidy_next hs
  · next h hh =>
    split
    · next m j hj =>
      refine endsTidy_ite (fun _ => endsTidy_next (CoreTidy.settleCore ?_)) (endsTidy_next hs)
      have unladen : Unladen s := by
        refine hs.unladen (hs.no_loads hh (by simp [hj]) (by simp [hj])) fun x hx => ?_
        obtain rfl : h = x := Option.some.inj (hh.symm.trans hx)
        simp [hj]
      exact (unladen.sheds (endStep_steady s).toSheds).tidy rfl (.inr ⟨_, rfl, rfl⟩)
    · exact endsTidy_next hs

theorem execNoticeBuilt_endsTidy : EndsTidy (execNoticeBuilt s) := by
  unfold execNoticeBuilt
  split
  · exact endsTidy_next hs
  · refine endsTidy_ite (fun _ => hs.ends_settled (Steady.orderly ?_)) (endsTidy_next hs)
    exact (endStep_steady s).trans (.of_eq rfl rfl)

/-! ### Sending and the links -/

theorem execLineLinkLoss_endsTidy (l : LineNo) : EndsTidy (execLineLinkLoss l s) :=
  endsTidy_ite (fun _ => endsTidy_next hs) (endsTidy_ite (fun _ => hs.ends_eq rfl rfl)
    (hs.ends_settled (Steady.orderly (.telling (.of_eq rfl rfl)))))

theorem execLineLinkRestore_endsTidy (l : LineNo) : EndsTidy (execLineLinkRestore l s) :=
  endsTidy_ite (fun _ => endsTidy_next hs) (endsTidy_ite (fun _ => hs.ends_eq rfl rfl)
    (hs.ends_taken (.telling (.of_eq rfl rfl))))

theorem execOnwardSendBegin_endsTidy : EndsTidy (execOnwardSendBegin s) := by
  unfold execOnwardSendBegin
  split
  exacts [endsTidy_next hs, endsTidy_ite (fun _ => hs.ends_eq rfl rfl) (endsTidy_next hs)]

/-- The answer's frame frees the Order Unit, for whose order no load's step waits (R42, R131, R137). -/
theorem execUpstreamTransmitChoice_endsTidy : EndsTidy (execUpstreamTransmitChoice s) := by
  unfold execUpstreamTransmitChoice
  refine endsTidy_ite (fun _ => ?_) (endsTidy_next hs)
  split
  · exact endsTidy_next hs
  · next src f hf =>
    cases src with
    | answer =>
      have full : s.order.answer = some f := waitingFrame_of_choice hf
      obtain ⟨h, hh, e⟩ := hs.answer (by rw [full]; exact Option.some_ne_none f)
      have noLoads := hs.no_loads hh (by simp [e]) (by simp [e])
      refine endsTidy_next ⟨hs.users, hs.served, fun k hk hc => ?_, fun k hk hu => ?_, fun ha => absurd rfl ha⟩
      · exact absurd (hs.counts k hk hc).1 (noLoads k hk)
      · exact absurd hu (noLoads k hk)
    | notice => exact hs.ends_eq rfl rfl
    | relay => exact hs.ends_eq rfl rfl

/-! ### The timers -/

theorem execLapse_endsTidy (run : Word) (offset : Nat) : EndsTidy (execLapse run offset s) := by
  unfold execLapse
  refine endsTidy_ite (fun _ => endsTidy_next hs) ?_
  split
  exacts [endsTidy_next hs, hs.ends_taken (lapsePosition_steady _ _ _ _ _ s)]

theorem execIdleMinuteDeadline_endsTidy : EndsTidy (execIdleMinuteDeadline s) := by
  unfold execIdleMinuteDeadline
  split
  exacts [endsTidy_next hs, endsTidy_ite (fun _ => hs.ends_eq rfl rfl) (endsTidy_next hs)]

theorem execIdleTimerExpiry_endsTidy : EndsTidy (execIdleTimerExpiry s) := by
  have dormant : Steady s (s.setCustody .dormant).discardCopies := .of_eq rfl rfl
  unfold execIdleTimerExpiry
  split
  · exact endsTidy_next hs
  · refine endsTidy_ite (fun _ => hs.ends_settled (Steady.orderly ?_)) (endsTidy_next hs)
    unfold enterDormant offerKey
    exact (dormant.trans (lapseAssemblies_steady _)).trans (offer_steady _ _ _ _)

/-! ### The long operations of the store and the sensor inputs -/

theorem execSlotVerifyStep_endsTidy : EndsTidy (execSlotVerifyStep s) := by
  unfold execSlotVerifyStep
  split
  · exact endsTidy_next hs
  · exact endsTidy_ite (fun _ => hs.ends_taken ((endStep_steady s).trans (verifySlot_steady _ _ _))) (endsTidy_next hs)

/-- The end of a scrub pass, with its KEY notice and a verify that waited for it (R6, R18, R27). -/
theorem endScrub_endsTidy (v : KeyVariant) (values : Bytes) :
    EndsTidy (.next (settleCore (releaseVerify (offerKey v values s.endScrub)))) := by
  have ended : Steady s s.endScrub := .of_eq rfl rfl
  exact hs.ends_settled ((ended.trans (offer_steady _ _ _ _)).trans (releaseVerify_steady _)).orderly

theorem execEraseScrubComplete_endsTidy : EndsTidy (execEraseScrubComplete s) := by
  unfold execEraseScrubComplete
  split
  exacts [endScrub_endsTidy hs _ _, endsTidy_next hs]

theorem execZeroiseScrubComplete_endsTidy : EndsTidy (execZeroiseScrubComplete s) := by
  unfold execZeroiseScrubComplete
  split
  exacts [endScrub_endsTidy hs _ _, endsTidy_next hs]

theorem execSensorInputActive_endsTidy (i : SensorNo) : EndsTidy (execSensorInputActive i s) :=
  endsTidy_ite (fun _ => endsTidy_next hs) (endsTidy_ite (fun _ => hs.ends_eq rfl rfl)
    (hs.ends_settled ((considerSensor_orderly i _).after rfl rfl)))

theorem execSensorInputInactive_endsTidy (i : SensorNo) : EndsTidy (execSensorInputInactive i s) := by
  have returned : ∀ t : State, Steady t (inputReturned i t) := by
    intro t
    unfold inputReturned
    split
    exacts [.of_eq rfl rfl, releaseSensor_steady i t, .refl t, .refl t]
  exact endsTidy_ite (fun _ => endsTidy_next hs) (endsTidy_ite (fun _ => hs.ends_eq rfl rfl)
    (hs.ends_taken ((returned _).after rfl rfl)))

omit hs

/-! ### Power -/

/-- The Core and the Order Unit at their reset values (R33, R137). -/
theorem tidy_of_reset {t : State} (hc : t.core = .initial) (ho : t.order = .initial) : CoreTidy t := by
  constructor <;> simp [hc, ho, CipherCore.initial, OrderUnit.initial]

theorem resumeWork_steady (s : State) : Steady s (resumeWork s) := (startIdle_steady _).after rfl rfl

theorem restoreVerify_steady (s : State) : Steady s (restoreVerify s) := by
  unfold restoreVerify
  exact ite_steady (.of_eq rfl rfl) (visitFrom_steady _ _ _ s)

theorem restartVerify_steady (s : State) : Steady s (restartVerify s) := by
  unfold restartVerify
  split
  exacts [.refl s, visitFrom_steady _ _ _ s]

theorem reportRestore_tidy {s : State} (hs : CoreTidy s) : CoreTidy (reportRestore s) := by
  have cleared : CoreTidy { s with tamper := { s.tamper with batteryTrips := .zero } } := hs.steady (.of_eq rfl rfl)
  exact (cleared.steady (offer_steady _ _ _ _)).steady (.of_eq rfl rfl)

theorem execMainRestore_endsTidy (hs : CoreTidy s) : EndsTidy (execMainRestore s) := by
  refine endsTidy_ite (fun _ => ?_) (endsTidy_next hs)
  have restored : CoreTidy (reportRestore (restoreDomains s)) := reportRestore_tidy (tidy_of_reset rfl rfl)
  generalize reportRestore (restoreDomains s) = r at restored
  exact restored.ends_settled
    (((lapseAssemblies_steady r).trans (restoreVerify_steady _)).trans (resumeWork_steady _)).orderly

theorem execWarmReset_endsTidy (hs : CoreTidy s) : EndsTidy (execWarmReset s) := by
  refine endsTidy_ite (fun _ => ?_) (endsTidy_next hs)
  have reset : CoreTidy (warmDomains s) := tidy_of_reset rfl rfl
  have reported : CoreTidy (offerPower .warmReset none none none (warmDomains s)) := reset.steady (offer_steady _ _ _ _)
  generalize offerPower .warmReset none none none (warmDomains s) = r at reported
  exact reported.ends_settled
    (((lapseAssemblies_steady r).trans (restartVerify_steady _)).trans (resumeWork_steady _)).orderly

theorem execFirstPower_endsTidy (hs : CoreTidy s) : EndsTidy (execFirstPower s) := by
  have reset : CoreTidy (firstPowerState s) := tidy_of_reset rfl rfl
  exact endsTidy_ite (fun _ => endsTidy_next (reset.steady (offer_steady _ _ _ _))) (endsTidy_next hs)

/-! ### Every command -/

/-- The row of an order keeps the Core tidy. -/
theorem execOrder_endsTidy (hs : CoreTidy s) {c : Instr} {rule : OrderRule} (h : orderRule c = some rule) : EndsTidy (exec c s) := by
  rw [exec_order h]
  exact endsTidy_next (hs.decideOrder fun a t => (orderRule_orderly h a t).toSheds)

/-- Every command keeps the Core tidy. -/
theorem exec_endsTidy (hs : CoreTidy s) (c : Instr) : EndsTidy (exec c s) := by
  have kept : ∀ {p : Prop} [Decidable p] {t : State}, t.core = s.core → t.order = s.order →
      EndsTidy (if p then .next t else .next s) :=
    fun hc ho => endsTidy_ite (fun _ => hs.ends_eq hc ho) (endsTidy_next hs)
  cases c with
  | orderFrame frame => exact execOrderFrame_endsTidy hs frame
  | record frame => exact execRecord_endsTidy hs frame
  | upstreamFrameError frame => exact execUpstreamFrameError_endsTidy hs frame
  | engineCipherStep => exact execEngineCipherStep_endsTidy hs
  | loadUnwrapEnd => exact execLoadUnwrapEnd_endsTidy hs
  | answerBuilt => exact execAnswerBuilt_endsTidy hs
  | noticeBuilt => exact execNoticeBuilt_endsTidy hs
  | outcome l frame => exact execOutcome_endsTidy hs l frame
  | lapse run offset => exact execLapse_endsTidy hs run offset
  | lineSendBegin l => exact kept rfl rfl
  | lineSendComplete l => exact kept rfl rfl
  | lineLinkLoss l => exact execLineLinkLoss_endsTidy hs l
  | lineLinkRestore l => exact execLineLinkRestore_endsTidy hs l
  | relayFrame frame => exact execRelayFrame_endsTidy hs frame
  | onwardSendBegin => exact execOnwardSendBegin_endsTidy hs
  | onwardSendComplete => exact kept rfl rfl
  | upstreamTransmitChoice => exact execUpstreamTransmitChoice_endsTidy hs
  | upstreamSendComplete => exact kept rfl rfl
  | portLinkLoss p => cases p <;> exact hs.ends_eq rfl rfl
  | portLinkRestore p => cases p <;> exact hs.ends_eq rfl rfl
  | assemblyLapse n => exact endsTidy_ite (fun _ => hs.ends_settled (lapseAssembly_steady n s).orderly) (endsTidy_next hs)
  | gateLapse => exact endsTidy_ite (fun _ => endsTidy_next (hs.steady (emptyGate_steady s))) (endsTidy_next hs)
  | settlingExpiry => exact kept rfl rfl
  | idleMinuteDeadline => exact execIdleMinuteDeadline_endsTidy hs
  | idleTimerExpiry => exact execIdleTimerExpiry_endsTidy hs
  | secondsClockAdvance => exact kept rfl rfl
  | slotVerifyStep => exact execSlotVerifyStep_endsTidy hs
  | eraseScrubComplete => exact execEraseScrubComplete_endsTidy hs
  | zeroiseScrubComplete => exact execZeroiseScrubComplete_endsTidy hs
  | sensorInputActive i => exact execSensorInputActive_endsTidy hs i
  | sensorInputInactive i => exact execSensorInputInactive_endsTidy hs i
  | qualificationExpiry i => exact endsTidy_ite (fun _ => hs.ends_settled (trip_orderly i s)) (endsTidy_next hs)
  | windowEnd => exact endsTidy_ite (fun _ => hs.ends_settled (closeWindow_orderly s)) (endsTidy_next hs)
  | mainLoss => exact endsTidy_ite (fun _ => endsTidy_next (tidy_of_reset rfl rfl)) (endsTidy_next hs)
  | firstPower => exact execFirstPower_endsTidy hs
  | mainRestore => exact execMainRestore_endsTidy hs
  | warmReset => exact execWarmReset_endsTidy hs
  | keyStoreSideCipherStep => exact execKeyStoreSideCipherStep_endsTidy hs
  | batteryLoss => exact endsTidy_ite (fun _ => endsTidy_next (tidy_of_reset rfl rfl)) (endsTidy_next hs)
  | _ => exact execOrder_endsTidy hs rfl

end

theorem tick_steady (s : State) : Steady s (tick s) := ite_steady (.of_eq rfl rfl) (.refl s)

/-- Settles O7: every command keeps the Core tidy, and an idle step's tick does not touch it. -/
theorem coreStaysTidy : Obligations.CoreStaysTidy := by
  intro s t hs ht
  unfold step at ht
  split at ht
  · obtain rfl : tick s = t := by injection ht
    exact hs.steady (tick_steady s)
  · next c rest _ => exact exec_endsTidy (s := { s with pending := rest }) (hs.steady (.of_eq rfl rfl)) c t ht

end Sys2Proof.Machine
end

section
/-! Proofs. E and D of the Cipher Core undo each other (R31): each part of a round is undone by its inverse on a state of sixteen bytes,
so the inverse rounds, with the round keys last first, undo the rounds. -/

namespace Sys2Proof.Machine

/-! ### Bytes and blocks -/

theorem natOfBytes_append (xs ys : Bytes) : natOfBytes (xs ++ ys) = natOfBytes xs * 256 ^ ys.length + natOfBytes ys := by
  induction ys using List.reverseRecOn with
  | nil => simp [natOfBytes]
  | append_singleton ys y ih =>
    rw [← List.append_assoc]
    have last : ∀ zs : Bytes, natOfBytes (zs ++ [y]) = natOfBytes zs * 256 + y.toNat := fun zs => by simp [natOfBytes]
    rw [last, last, ih, List.length_append, List.length_singleton, pow_succ]
    ring

theorem natOfBytes_lt (bs : Bytes) : natOfBytes bs < 256 ^ bs.length := by
  induction bs using List.reverseRecOn with
  | nil => simp [natOfBytes]
  | append_singleton bs b ih =>
    have hb := b.isLt
    rw [natOfBytes_append, List.length_append, List.length_singleton, pow_succ]
    simp only [natOfBytes, List.foldl_cons, List.foldl_nil] at ih ⊢
    omega

/-- The bytes of a number in a fixed width, most significant first. -/
def bytesBE : Nat → Nat → Bytes
  | 0, _ => []
  | w + 1, n => bytesBE w (n / 256) ++ [byteOf n]

@[simp] theorem bytesBE_length (w n : Nat) : (bytesBE w n).length = w := by
  induction w generalizing n with
  | zero => rfl
  | succ w ih => simp [bytesBE, ih]

theorem natOfBytes_bytesBE (w n : Nat) : natOfBytes (bytesBE w n) = n % 256 ^ w := by
  induction w generalizing n with
  | zero => simp [bytesBE, natOfBytes, Nat.mod_one]
  | succ w ih =>
    rw [bytesBE, natOfBytes_append, ih, pow_succ', Nat.mod_mul]
    simp [natOfBytes, byteOf]
    ring

theorem bytesBE_natOfBytes (bs : Bytes) : bytesBE bs.length (natOfBytes bs) = bs := by
  induction bs using List.reverseRecOn with
  | nil => rfl
  | append_singleton bs b ih =>
    have hb := b.isLt
    have last : natOfBytes (bs ++ [b]) = natOfBytes bs * 256 + b.toNat := by simp [natOfBytes]
    have high : natOfBytes (bs ++ [b]) / 256 = natOfBytes bs := by omega
    have low : byteOf (natOfBytes (bs ++ [b])) = b := by
      apply BitVec.eq_of_toNat_eq
      simp only [byteOf, BitVec.toNat_ofNat]
      omega
    rw [List.length_append, List.length_singleton, bytesBE, high, low, ih]

theorem bytesOfBlock_eq (b : Block) : bytesOfBlock b = bytesBE 16 b.toNat := by
  simp [bytesOfBlock, be32, bytesBE, Nat.div_div_eq_div_mul]

@[simp] theorem bytesOfBlock_length (b : Block) : (bytesOfBlock b).length = 16 := rfl

/-- A block is spelled by its bytes. -/
@[simp] theorem blockOfBytes_bytesOfBlock (b : Block) : blockOfBytes (bytesOfBlock b) = b := by
  rw [blockOfBytes, bytesOfBlock_eq, natOfBytes_bytesBE, show 256 ^ 16 = 2 ^ 128 from rfl, Nat.mod_eq_of_lt b.isLt,
    BitVec.ofNat_toNat, BitVec.setWidth_eq]

/-- Sixteen bytes are those of the block they spell. -/
theorem bytesOfBlock_blockOfBytes {bs : Bytes} (h : bs.length = 16) : bytesOfBlock (blockOfBytes bs) = bs := by
  have bound : natOfBytes bs < 2 ^ 128 := by have := natOfBytes_lt bs; rw [h] at this; exact this
  rw [bytesOfBlock_eq, blockOfBytes, BitVec.toNat_ofNat, Nat.mod_eq_of_lt bound, ← h, bytesBE_natOfBytes]

/-! ### The parts of a round -/

theorem invSubByte_subByte (b : Byte) : invSubByte (subByte b) = b := by
  have table : ∀ i : Fin 256, invSubByte (subByte (.ofFin i)) = .ofFin i := by decide +kernel
  exact table b.toFin

theorem map_invSubByte_subByte (st : Bytes) : (st.map subByte).map invSubByte = st := by
  rw [List.map_map, show invSubByte ∘ subByte = id from funext invSubByte_subByte, List.map_id]

/-- The rotations of the rows are undone. -/
theorem invShiftRows_shiftRows : ∀ {st : Bytes}, st.length = 16 → invShiftRows (shiftRows st) = st
  | [_, _, _, _, _, _, _, _, _, _, _, _, _, _, _, _], _ => rfl

@[simp] theorem shiftRows_length (st : Bytes) : (shiftRows st).length = 16 := rfl

/-! ### The mixing of a column -/

theorem xor_left_comm (a b c : Byte) : a ^^^ (b ^^^ c) = b ^^^ (a ^^^ c) := by ac_rfl

/-- Multiplication by x distributes over the sum. -/
theorem xtime_xor (a b : Byte) : xtime (a ^^^ b) = xtime a ^^^ xtime b := by
  unfold xtime
  rw [BitVec.msb_xor, BitVec.shiftLeft_xor_distrib]
  cases a.msb <;> cases b.msb <;> simp [BitVec.xor_assoc, BitVec.xor_comm, xor_left_comm]

/-- The first byte of a mixed column; the others are those of the column rotated. -/
def mixRow (a b c d : Byte) : Byte := xtime a ^^^ (xtime b ^^^ b) ^^^ c ^^^ d

/-- The first byte of a column mixed inversely. -/
def invMixRow (a b c d : Byte) : Byte := mul14 a ^^^ mul11 b ^^^ mul13 c ^^^ mul9 d

theorem mixColumn_eq (a b c d : Byte) :
    mixColumn a b c d = [mixRow a b c d, mixRow b c d a, mixRow c d a b, mixRow d a b c] := by
  simp only [mixColumn, mixRow, List.cons.injEq, and_true]
  refine ⟨trivial, ?_, ?_, ?_⟩ <;> ac_rfl

theorem invMixColumn_eq (a b c d : Byte) :
    invMixColumn a b c d = [invMixRow a b c d, invMixRow b c d a, invMixRow c d a b, invMixRow d a b c] := by
  simp only [invMixColumn, invMixRow, List.cons.injEq, and_true]
  refine ⟨trivial, ?_, ?_, ?_⟩ <;> ac_rfl

/-- The inverse row by powers of x, highest first. -/
theorem invMixRow_powers (p q r s : Byte) :
    invMixRow p q r s = xtime (xtime (xtime (p ^^^ q ^^^ r ^^^ s) ^^^ (p ^^^ r)) ^^^ (p ^^^ q)) ^^^ (q ^^^ r ^^^ s) := by
  simp only [invMixRow, mul9, mul11, mul13, mul14, xtime_xor]
  ac_rfl

/-- The inverse row of a mixed column is its first byte: at each power of x the two sums cancel. -/
theorem invMixRow_mixRow (a b c d : Byte) :
    invMixRow (mixRow a b c d) (mixRow b c d a) (mixRow c d a b) (mixRow d a b c) = a := by
  have cubes : mixRow a b c d ^^^ mixRow b c d a ^^^ mixRow c d a b ^^^ mixRow d a b c = a ^^^ b ^^^ c ^^^ d := by
    simp [mixRow, BitVec.xor_assoc, BitVec.xor_comm, xor_left_comm]
  have squares : xtime (a ^^^ b ^^^ c ^^^ d) ^^^ (mixRow a b c d ^^^ mixRow c d a b) = a ^^^ c := by
    simp [mixRow, xtime_xor, BitVec.xor_assoc, BitVec.xor_comm, xor_left_comm]
  have singles : xtime (a ^^^ c) ^^^ (mixRow a b c d ^^^ mixRow b c d a) = a ^^^ b := by
    simp [mixRow, xtime_xor, BitVec.xor_assoc, BitVec.xor_comm, xor_left_comm]
  have units : xtime (a ^^^ b) ^^^ (mixRow b c d a ^^^ mixRow c d a b ^^^ mixRow d a b c) = a := by
    simp [mixRow, xtime_xor, BitVec.xor_assoc, BitVec.xor_comm, xor_left_comm]
  rw [invMixRow_powers, cubes, squares, singles, units]

theorem onColumns_invMix_mix (st : Bytes) : onColumns invMixColumn (onColumns mixColumn st) = st := by
  induction st using onColumns.induct with
  | case1 a b c d rest ih =>
    rw [onColumns, mixColumn_eq]
    simp only [List.cons_append, List.nil_append, onColumns, invMixColumn_eq, invMixRow_mixRow, ih]
  | case2 rest short =>
    have unmixed : ∀ f, onColumns f rest = rest := fun f => by
      unfold onColumns
      split
      · next a b c d rest => exact absurd rfl (short a b c d rest)
      · rfl
    rw [unmixed, unmixed]

theorem onColumns_mix_length (st : Bytes) : (onColumns mixColumn st).length = st.length := by
  induction st using onColumns.induct with
  | case1 a b c d rest ih => simp [onColumns, mixColumn, ih]
  | case2 rest short =>
    unfold onColumns
    split
    · next a b c d rest => exact absurd rfl (short a b c d rest)
    · rfl

/-! ### Round keys -/

theorem xorBytes_length (a b : Bytes) : (xorBytes a b).length = min a.length b.length := List.length_zipWith

/-- A round key added twice is no change. -/
theorem xorBytes_xorBytes {a k : Bytes} (h : a.length = k.length) : xorBytes (xorBytes a k) k = a := by
  refine List.ext_getElem (by simp [xorBytes_length, h]) fun i _ _ => ?_
  simp [xorBytes]

theorem nextRoundKey_length (k : Bytes) (rcon : Byte) : (nextRoundKey k rcon).length = 16 := by
  simp [nextRoundKey, xorBytes_length, pickBytes]

theorem roundKeysFrom_length {k : Bytes} (hk : k.length = 16) (rcons : List Byte) : ∀ x ∈ roundKeysFrom k rcons, x.length = 16 := by
  induction rcons generalizing k with
  | nil => simpa [roundKeysFrom] using hk
  | cons rcon rest ih =>
    intro x hx
    rcases List.mem_cons.1 hx with rfl | hx
    exacts [hk, ih (nextRoundKey_length k rcon) x hx]

/-- The round keys of a key: a first, those between, and a last, each of sixteen bytes. -/
theorem roundKeys_shape (key : Block) :
    ∃ first between last, roundKeys key = first :: (between ++ [last]) ∧ ∀ k ∈ roundKeys key, k.length = 16 := by
  have lengths := roundKeysFrom_length (bytesOfBlock_length key) [0x01, 0x02, 0x04, 0x08, 0x10, 0x20, 0x40, 0x80, 0x1B, 0x36]
  exact ⟨_, [_, _, _, _, _, _, _, _, _], _, rfl, lengths⟩

/-! ### The rounds -/

theorem encryptRounds_cons {st k : Bytes} {rest : List Bytes} (h : rest ≠ []) :
    encryptRounds st (k :: rest) = encryptRounds (xorBytes (onColumns mixColumn (shiftRows (st.map subByte))) k) rest := by
  cases rest with
  | nil => exact absurd rfl h
  | cons => rfl

theorem decryptRounds_cons {st k : Bytes} {rest : List Bytes} (h : rest ≠ []) :
    decryptRounds st (k :: rest) = decryptRounds (onColumns invMixColumn (xorBytes ((invShiftRows st).map invSubByte) k)) rest := by
  cases rest with
  | nil => exact absurd rfl h
  | cons => rfl

/-- The last inverse round follows the mixing that ends the round before it. -/
theorem decryptRounds_concat (st k last : Bytes) (ks : List Bytes) :
    decryptRounds st (ks ++ [k] ++ [last]) =
      xorBytes ((invShiftRows (onColumns invMixColumn (decryptRounds st (ks ++ [k])))).map invSubByte) last := by
  induction ks generalizing st with
  | nil => rfl
  | cons x ks ih =>
    simp only [List.cons_append]
    rw [decryptRounds_cons (by simp), decryptRounds_cons (by simp), ih]

theorem encryptRounds_length {st : Bytes} (hs : st.length = 16) {ks : List Bytes} (hk : ∀ k ∈ ks, k.length = 16) :
    (encryptRounds st ks).length = 16 := by
  induction ks generalizing st with
  | nil => exact hs
  | cons k rest ih =>
    have hk' := hk k List.mem_cons_self
    cases rest with
    | nil => simp [encryptRounds, xorBytes_length, hk']
    | cons y rest =>
      rw [encryptRounds_cons (by simp)]
      exact ih (by simp [xorBytes_length, onColumns_mix_length, hk']) fun x hx => hk x (List.mem_cons_of_mem k hx)

/-- The substitution and the rotation of a round are undone. -/
theorem invSub_invShift_shift_sub {st : Bytes} (h : st.length = 16) :
    (invShiftRows (shiftRows (st.map subByte))).map invSubByte = st := by
  rw [invShiftRows_shiftRows (by simpa using h), map_invSubByte_subByte]

/-- The inverse rounds undo the rounds, to the addition of the key before the first. -/
theorem decryptRounds_encryptRounds {st last : Bytes} (hs : st.length = 16) {ks : List Bytes}
    (hk : ∀ k ∈ ks ++ [last], k.length = 16) (first : Bytes) :
    decryptRounds (xorBytes (encryptRounds st (ks ++ [last])) last) (ks.reverse ++ [first]) = xorBytes st first := by
  induction ks generalizing st first with
  | nil =>
    have hl : last.length = 16 := hk last (by simp)
    simp only [List.nil_append, List.reverse_nil, encryptRounds, decryptRounds]
    rw [xorBytes_xorBytes (by simp [hl]), invSub_invShift_shift_sub hs]
  | cons k ks ih =>
    have hl : k.length = 16 := hk k (by simp)
    have mixed : (onColumns mixColumn (shiftRows (st.map subByte))).length = 16 := by simp [onColumns_mix_length]
    rw [List.cons_append, encryptRounds_cons (by simp), List.reverse_cons, decryptRounds_concat,
      ih (by simp [xorBytes_length, mixed, hl]) (fun x hx => hk x (List.mem_cons_of_mem k hx)),
      xorBytes_xorBytes (mixed.trans hl.symm), onColumns_invMix_mix, invSub_invShift_shift_sub hs]

/-- D undoes E (R31). -/
theorem cipherD_cipherE (key x : Block) : cipherD key (cipherE key x) = x := by
  obtain ⟨first, between, last, hkeys, lengths⟩ := roundKeys_shape key
  have reversed : (roundKeys key).reverse = last :: (between.reverse ++ [first]) := by simp [hkeys]
  rw [hkeys] at lengths
  have hf : first.length = 16 := lengths first (by simp)
  have hk : ∀ k ∈ between ++ [last], k.length = 16 := fun k h => lengths k (List.mem_cons_of_mem first h)
  have hs : (xorBytes (bytesOfBlock x) first).length = 16 := by simp [xorBytes_length, hf]
  have encrypted : cipherE key x = blockOfBytes (encryptRounds (xorBytes (bytesOfBlock x) first) (between ++ [last])) := by
    simp only [cipherE, hkeys]
  have decrypted : ∀ y, cipherD key y =
      blockOfBytes (decryptRounds (xorBytes (bytesOfBlock y) last) (between.reverse ++ [first])) := fun y => by
    simp only [cipherD, reversed]
  rw [decrypted, encrypted, bytesOfBlock_blockOfBytes (encryptRounds_length hs hk), decryptRounds_encryptRounds hs hk,
    xorBytes_xorBytes (by simp [hf]), blockOfBytes_bytesOfBlock]

/-- Settles O9: D undoes E, so E is injective on the finite set of blocks, hence onto it, and E undoes D. -/
theorem cipherInverts : Obligations.CipherInverts := by
  intro key x
  have undoes : Function.LeftInverse (cipherD key) (cipherE key) := cipherD_cipherE key
  have onto : Function.Surjective (cipherE key) := Finite.surjective_of_injective undoes.injective
  exact ⟨undoes x, undoes.rightInverse_of_surjective onto x⟩

end Sys2Proof.Machine
end

section
/-! Proofs. The chain tag (R34), the identity field (R37) and the derivation block (R38). -/

namespace Sys2Proof.Machine

/-! ### The chain tag -/

theorem padMessage_length (bs : Bytes) : (padMessage bs).length = 16 * (bs.length / 16 + 1) := by
  simp only [padMessage, List.length_append, List.length_singleton, List.length_replicate]
  omega

theorem takeBlocks_eq (n : Nat) (bs : Bytes) :
    takeBlocks n bs = (List.range n).map fun i => blockOfBytes (sliceBytes bs (16 * i) 16) := by
  induction n generalizing bs with
  | zero => rfl
  | succ n ih =>
    rw [takeBlocks, ih, List.range_succ_eq_map, List.map_cons, List.map_map]
    congr 1
    refine List.map_congr_left fun i _ => ?_
    simp only [Function.comp_apply, sliceBytes, List.drop_drop]
    rw [show 16 + 16 * i = 16 * i.succ by omega]

/-- The i-th block of the padded message (R34). -/
def tagBlock (bs : Bytes) (i : Nat) : Block := blockOfBytes (sliceBytes (padMessage bs) (16 * i) 16)

theorem tagBlocks_eq (bs : Bytes) : tagBlocks bs = (List.range (bs.length / 16 + 1)).map (tagBlock bs) := takeBlocks_eq _ _

/-- The chain value after so many blocks (R34 stage 2). -/
def chainValue (key : Block) (bs : Bytes) : Nat → Block
  | 0 => 0
  | i + 1 => cipherE key (chainValue key bs i ^^^ tagBlock bs i)

theorem foldl_tagBlock (key : Block) (bs : Bytes) (n : Nat) :
    ((List.range n).map (tagBlock bs)).foldl (fun v b => cipherE key (v ^^^ b)) 0 = chainValue key bs n := by
  induction n with
  | zero => rfl
  | succ n ih => rw [List.range_succ, List.map_append, List.foldl_append, ih]; rfl

theorem chainTag_eq (key : Block) (bs : Bytes) : chainTag key bs = truncateTag (chainValue key bs (bs.length / 16 + 1)) := by
  rw [chainTag, tagBlocks_eq, foldl_tagBlock]

/-- A tag is the first 8 bytes of its chain value (R34 stage 3). -/
theorem bytesOfTag_truncateTag (v : Block) : bytesOfTag (truncateTag v) = (bytesOfBlock v).take 8 := by
  have value : (truncateTag v).toNat = v.toNat / 2 ^ 64 := by
    have := v.isLt
    rw [truncateTag, BitVec.toNat_ofNat, Nat.mod_eq_of_lt]
    omega
  rw [bytesOfTag, value, Nat.div_div_eq_div_mul, show 2 ^ 64 * 2 ^ 32 = 2 ^ 96 from rfl]
  rfl

/-- A tag in the making once the step it presents has ended (R32, R34). -/
def TagJob.stepped (j : TagJob) : TagJob := j.next j.step.result

/-- The steps presented one after another take the blocks in turn and compute the chain values (R34). -/
theorem stepped_iterate (key : Block) (bs : Bytes) {i : Nat} (hi : i ≤ bs.length / 16 + 1) :
    TagJob.stepped^[i] (TagJob.start key bs) =
      { key := key, chain := chainValue key bs i, blocks := (tagBlocks bs).drop i } := by
  induction i with
  | zero => rfl
  | succ i ih =>
    have first : ((tagBlocks bs).drop i).headD 0 = tagBlock bs i := by
      have block : (tagBlocks bs)[i]? = some (tagBlock bs i) := by simp [tagBlocks_eq, show i < bs.length / 16 + 1 from hi]
      rw [List.headD_eq_head?_getD, List.head?_drop, block, Option.getD_some]
    rw [Function.iterate_succ_apply', ih (by omega)]
    simp only [TagJob.stepped, TagJob.next, TagJob.step, CipherStep.result, first, List.tail_drop, chainValue]

/-- Settles O10. -/
theorem chainTagIsR34 : Obligations.ChainTagIsR34 := by
  intro key bs n b
  refine ⟨padMessage_length bs, ⟨15 - bs.length % 16, Nat.sub_le _ _, by simp [padMessage]⟩, tagBlocks_eq bs,
    chainValue key bs, rfl, fun i _ => rfl, ?_, fun i hi => ?_⟩
  · rw [chainTag_eq, bytesOfTag_truncateTag]
  · have next : TagJob.stepped^[i + 1] (TagJob.start key bs) = (TagJob.stepped^[i] (TagJob.start key bs)).stepped :=
      Function.iterate_succ_apply' _ _ _
    rw [stepped_iterate key bs hi] at next
    refine ⟨(congrArg TagJob.chain next).symm, ?_⟩
    show (TagJob.stepped^[i] (TagJob.start key bs)).isLast = true ↔ _
    rw [stepped_iterate key bs (Nat.le_of_lt hi), TagJob.isLast, List.tail_drop, List.isEmpty_iff, List.drop_eq_nil_iff, tagBlocks_eq,
      List.length_map, List.length_range]
    show n ≤ i + 1 ↔ i + 1 = n
    omega

/-! ### The identity field -/

theorem validIdentity_iff (bs : Bytes) :
    validIdentity bs = true ↔ 12 ≤ bs.length ∧ bs.length ≤ 19 ∧ ∀ b ∈ bs, 0x30 ≤ b.toNat ∧ b.toNat ≤ 0x39 := by
  simp only [validIdentity, Bool.and_eq_true, decide_eq_true_eq, List.all_eq_true, and_assoc]

/-- Settles O11: the walk tests the identity before it asks for the use of the master key. -/
theorem identityIsR37 : Obligations.IdentityIsR37 := by
  intro bs
  refine ⟨validIdentity_iff bs, fun a rest w s hk hs hv => ?_⟩
  have source : ({ w with todo := a :: rest } : Work).source a.source = some bs := hs
  simp only [walk, hk, source, hv, Bool.not_false, if_true]

/-! ### The derivation block -/

/-- The number that nibbles spell, the first leftmost. -/
def natOfNibbles (ds : List Nat) : Nat := ds.foldl (fun a d => a * 16 + d) 0

theorem natOfNibbles_concat (ds : List Nat) (d : Nat) : natOfNibbles (ds ++ [d]) = natOfNibbles ds * 16 + d := by
  simp [natOfNibbles]

theorem natOfNibbles_lt {ds : List Nat} (h : ∀ d ∈ ds, d < 16) : natOfNibbles ds < 16 ^ ds.length := by
  induction ds using List.reverseRecOn with
  | nil => simp [natOfNibbles]
  | append_singleton ds d ih =>
    have hd := h d (by simp)
    have hds := ih fun x hx => h x (by simp [hx])
    rw [natOfNibbles_concat, List.length_append, List.length_singleton, pow_succ]
    omega

/-- Each nibble is read back from the number at its place. -/
theorem natOfNibbles_nibble {ds : List Nat} (h : ∀ d ∈ ds, d < 16) {i : Nat} (hi : i < ds.length) :
    natOfNibbles ds / 16 ^ (ds.length - 1 - i) % 16 = ds[i] := by
  induction ds using List.reverseRecOn with
  | nil => simp at hi
  | append_singleton ds d ih =>
    have hd := h d (by simp)
    rw [List.length_append, List.length_singleton] at hi
    rw [natOfNibbles_concat, List.length_append, List.length_singleton]
    by_cases last : i = ds.length
    · subst last
      rw [List.getElem_concat_length rfl, show ds.length + 1 - 1 - ds.length = 0 by omega, pow_zero, Nat.div_one]
      omega
    · have before : i < ds.length := by omega
      rw [List.getElem_append_left before, ← ih (fun x hx => h x (by simp [hx])) before,
        show ds.length + 1 - 1 - i = ds.length - 1 - i + 1 by omega, pow_succ', ← Nat.div_div_eq_div_mul,
        show (natOfNibbles ds * 16 + d) / 16 = natOfNibbles ds by omega]

theorem bytesBE_getElem (w n : Nat) {i : Nat} (hi : i < w) :
    (bytesBE w n)[i]'(by simpa using hi) = byteOf (n / 256 ^ (w - 1 - i)) := by
  induction w generalizing n with
  | zero => omega
  | succ w ih =>
    simp only [bytesBE]
    by_cases last : i = w
    · subst last; simp
    · have before : i < w := by omega
      rw [List.getElem_append_left (by simpa using before), ih _ before, Nat.div_div_eq_div_mul, ← pow_succ',
        show w - 1 - i + 1 = w + 1 - 1 - i by omega]

/-- The twenty nibbles of a derivation block (R38): FH before the digits' values. -/
def digitNibbles (digits : Bytes) : List Nat :=
  List.replicate (20 - digits.length) 15 ++ digits.map fun b => b.toNat - 0x30

theorem derivationBlock_eq (digits : Bytes) (variant : BitVec 16) :
    derivationBlock digits variant =
      BitVec.ofNat 128 (natOfNibbles (digitNibbles digits) * 2 ^ 48 + variant.toNat * 2 ^ 32) := rfl

section
variable {digits : Bytes} (hv : validIdentity digits = true)
include hv

theorem digitNibbles_length : (digitNibbles digits).length = 20 := by
  obtain ⟨-, short, -⟩ := (validIdentity_iff digits).1 hv
  simp only [digitNibbles, List.length_append, List.length_replicate, List.length_map]
  omega

theorem digitNibbles_lt : ∀ d ∈ digitNibbles digits, d < 16 := by
  obtain ⟨-, -, ascii⟩ := (validIdentity_iff digits).1 hv
  intro d hd
  rcases List.mem_append.1 hd with hd | hd
  · rw [List.eq_of_mem_replicate hd]; decide
  · obtain ⟨b, hb, rfl⟩ := List.mem_map.1 hd
    have := ascii b hb
    omega

/-- The number of a derivation block fits its 16 bytes: the nibbles' part stands above the 6 bytes of the variant and the zeros. -/
theorem derivationBlock_toNat (variant : BitVec 16) :
    (derivationBlock digits variant).toNat = natOfNibbles (digitNibbles digits) * 2 ^ 48 + variant.toNat * 2 ^ 32 := by
  have nibbles := natOfNibbles_lt (digitNibbles_lt hv)
  rw [digitNibbles_length hv] at nibbles
  have := variant.isLt
  rw [derivationBlock_eq, BitVec.toNat_ofNat, Nat.mod_eq_of_lt]
  omega

/-- The first ten bytes hold the nibbles, two in each. -/
theorem derivationBlock_byte (variant : BitVec 16) {k : Nat} (hk : k < 10) :
    (byteAt (bytesOfBlock (derivationBlock digits variant)) k).toNat =
      natOfNibbles (digitNibbles digits) / 16 ^ (2 * (9 - k)) % 256 := by
  have := variant.isLt
  have high : (derivationBlock digits variant).toNat / 256 ^ 6 = natOfNibbles (digitNibbles digits) := by
    rw [derivationBlock_toNat hv]; omega
  have place : (256 : Nat) ^ (16 - 1 - k) = 256 ^ 6 * 16 ^ (2 * (9 - k)) := by
    rw [show (16 : Nat) ^ (2 * (9 - k)) = 256 ^ (9 - k) by rw [pow_mul]; rfl, ← pow_add]
    congr 1
    omega
  rw [byteAt, bytesOfBlock_eq, List.getD_eq_getElem _ _ (by simp; omega), bytesBE_getElem 16 _ (by omega), place,
    ← Nat.div_div_eq_div_mul, high, byteOf, BitVec.toNat_ofNat]

/-- The high half of a byte is the nibble of even number, the low half the one after it. -/
theorem derivationBlock_nibble (variant : BitVec 16) {i : Nat} (hi : i < 20) :
    (if i % 2 = 0 then (byteAt (bytesOfBlock (derivationBlock digits variant)) (i / 2)).toNat / 16
      else (byteAt (bytesOfBlock (derivationBlock digits variant)) (i / 2)).toNat % 16) =
        (digitNibbles digits)[i]'(by rw [digitNibbles_length hv]; exact hi) := by
  have nibble := natOfNibbles_nibble (digitNibbles_lt hv) (i := i) (by rw [digitNibbles_length hv]; exact hi)
  simp only [digitNibbles_length hv] at nibble
  rw [derivationBlock_byte hv variant (by omega), ← nibble]
  split
  · rw [show 20 - 1 - i = 2 * (9 - i / 2) + 1 by omega, pow_succ, ← Nat.div_div_eq_div_mul]
    omega
  · rw [show 20 - 1 - i = 2 * (9 - i / 2) by omega]
    omega

/-- Bytes 10 to 15: the variant, high byte first, and 00H bytes. -/
theorem derivationBlock_tail (variant : BitVec 16) :
    (bytesOfBlock (derivationBlock digits variant)).drop 10 =
      [byteOf (variant.toNat / 256), byteOf variant.toNat, 0, 0, 0, 0] := by
  have := variant.isLt
  have same : ∀ {m n : Nat}, m % 256 = n % 256 → byteOf m = byteOf n := fun h => BitVec.eq_of_toNat_eq (by simpa [byteOf] using h)
  simp only [bytesOfBlock, be32, derivationBlock_toNat hv, List.cons_append, List.nil_append, List.drop_succ_cons, List.drop_zero]
  have zero : (0 : Byte) = byteOf 0 := rfl
  rw [zero]
  simp only [List.cons.injEq, and_true]
  refine ⟨same ?_, same ?_, same ?_, same ?_, same ?_, same ?_⟩ <;> omega

end

/-- Settles O12. -/
theorem derivationBlockIsR38 : Obligations.DerivationBlockIsR38 := by
  intro digits variant hv b nibble
  obtain ⟨-, short, -⟩ := (validIdentity_iff digits).1 hv
  refine ⟨bytesOfBlock_length _, fun i hi => ?_, fun k hk => ?_, derivationBlock_tail hv variant⟩
  · refine (derivationBlock_nibble hv variant (by omega)).trans ?_
    simp [digitNibbles, List.getElem_append_left, hi]
  · refine (derivationBlock_nibble hv variant (by omega)).trans ?_
    simp [digitNibbles, byteAt, hk]

end Sys2Proof.Machine
end

section
/-! Proofs. The sharing of the Cipher Core (R32), and the Key Store side's steps that go on (R33, R42, R151, R174). -/

namespace Sys2Proof.Machine

/-! ### The sharing of the Core -/

/-- What a user has to present does not depend on the Core. -/
theorem wantedStep_presentSteps (s : State) (u : KsUser) : (presentSteps s).wantedStep u = s.wantedStep u := by
  cases u <;> rfl

theorem newSteps_nil {s : State} (h : ∀ u, s.wantedStep u = none) : s.newSteps = [] := by
  simp [State.newSteps, h]

/-- With an empty queue and an idle Core, no step is presented only when no user has one (R32). -/
theorem wanted_none {s : State} (hw : s.core.work = .idle) (hq : s.core.queue = []) (hn : s.newSteps = []) (u : KsUser) :
    s.wantedStep u = none := by
  by_contra hk
  obtain ⟨k, hk⟩ := Option.ne_none_iff_exists'.1 hk
  have presented : k ∈ s.newSteps := by
    rw [mem_newSteps, wantedStep_user hk]
    exact ⟨by simp [State.outstanding, State.coreServes, hw, hq], hk⟩
  rw [hn] at presented
  cases presented

theorem settleCore_work (s : State) : (settleCore s).core.work = (beginStep (presentSteps s)).core.work := rfl

/-- An idle Core that the event leaves idle had nothing to do: the queue is empty, the engine waits for no step, and no user has one to
present (R32). -/
theorem settleCore_idle {s : State} (h : (settleCore s).core.work = .idle) :
    (settleCore s).core.queue = [] ∧ (settleCore s).core.engineWaits = none ∧ ∀ u, (settleCore s).wantedStep u = none := by
  rw [settleCore_work] at h
  have hw : (presentSteps s).core.work = .idle := by
    by_contra busy
    rw [beginStep_busy busy] at h
    exact busy h
  obtain ⟨-, ⟨k, rest, hq, hc⟩ | ⟨hq, c, he, hc⟩ | ⟨hq, he, e⟩⟩ := beginStep_cases hw
  · rw [hc] at h; cases h
  · rw [hc] at h; cases h
  · obtain ⟨empty, none_new⟩ := List.append_eq_nil_iff.1 (show s.core.queue ++ arrange s.free s.newSteps = [] from hq)
    have none_presented : s.newSteps = [] := List.perm_nil.1 (none_new ▸ (arrange_perm s.free s.newSteps).symm)
    have none_wanted := wanted_none (s := s) hw empty none_presented
    have again : settleCore s = presentSteps (presentSteps s) := congrArg presentSteps e
    have wanted : ∀ u, (settleCore s).wantedStep u = none := fun u => by
      rw [again, wantedStep_presentSteps, wantedStep_presentSteps, none_wanted]
    refine ⟨?_, by rw [again]; exact he, wanted⟩
    have none_left : (presentSteps s).newSteps = [] := newSteps_nil fun u => by rw [wantedStep_presentSteps, none_wanted]
    rw [again, presentSteps_core, hq, none_left]
    rfl

/-- Settles O16. -/
theorem coreServesWaitingSteps : Obligations.CoreServesWaitingSteps := by
  intro s
  refine ⟨settleCore_settles, settleCore_idle, fun hw => ?_, fun k rest hw hq => ?_, fun c hw hq hu he => ?_⟩
  · rw [settleCore_work, beginStep_busy (s := presentSteps s) hw]; rfl
  · rw [settleCore_work]
    have first : (presentSteps s).core.queue = k :: (rest ++ arrange s.free s.newSteps) := by
      rw [presentSteps_core, hq]; rfl
    obtain ⟨-, ⟨j, others, hj, hc⟩ | ⟨hj, -⟩ | ⟨hj, -⟩⟩ := beginStep_cases (s := presentSteps s) hw
    · obtain ⟨rfl, -⟩ := List.cons.inj (first.symm.trans hj)
      rw [hc]
    all_goals rw [first] at hj; cases hj
  · have empty : (presentSteps s).core.queue = [] := by rw [presentSteps_core, hq, newSteps_nil hu]; rfl
    obtain ⟨-, ⟨j, others, hj, -⟩ | ⟨-, d, hd, hc⟩ | ⟨-, hd, -⟩⟩ := beginStep_cases (s := presentSteps s) hw
    · rw [empty] at hj; cases hj
    · obtain rfl : c = d := Option.some.inj (he.symm.trans hd)
      have begun : (settleCore s).core.engineWaits = (beginStep (presentSteps s)).core.engineWaits := rfl
      rw [settleCore_work, begun, hc]
      exact ⟨rfl, rfl⟩
    · exact absurd (he.symm.trans hd) (Option.some_ne_none c)

/-! ### A step that is not the last of its operation -/

/-- A step is not a tag's last while two blocks or more are still to be taken (R34). -/
theorem isLast_false {j : TagJob} (h : 2 ≤ j.blocks.length) : j.isLast = false := by
  rw [TagJob.isLast, List.isEmpty_eq_false_iff, ← List.length_pos_iff, List.length_tail]
  omega

theorem isLast_true {j : TagJob} (h : j.blocks.length ≤ 1) : j.isLast = true := by
  rw [TagJob.isLast, List.isEmpty_iff, ← List.length_eq_zero_iff, List.length_tail]
  omega

/-- The order in hand with another handling. -/
theorem setHandling_eq {s : State} {h : OrderInHand} (hh : s.order.hand = some h) (x : Handling) :
    (s.setHandling fun _ => x) = { s with order := { s.order with hand := some { h with handling := x } } } := by
  simp only [State.setHandling, hh, Option.map_some]

/-- A step of the order in hand, of its tag or its load, that is not the last: the unit with the next handling, its steps then shared
(R32). -/
theorem orderStep_goes_on {s : State} {k : KsStep} {h : OrderInHand} {x : Handling} (hw : s.core.work = .keyStore k false)
    (hu : k.user = .order ∨ k.user = .load) (hh : s.order.hand = some h)
    (hx : nextHandling s.endStep k.step.result h.handling = some x) :
    exec .keyStoreSideCipherStep s =
      .next (settleCore { s.endStep with order := { s.endStep.order with hand := some { h with handling := x } } }) := by
  have ended : s.endStep.order.hand = some h := hh
  have stepped : stepKeyStoreSide k.user k.step.result s.endStep = some (s.endStep.setHandling fun _ => x) := by
    rcases hu with e | e <;> simp only [stepKeyStoreSide, e, ended, hx, Option.map_some]
  show execKeyStoreSideCipherStep s = _
  simp only [execKeyStoreSideCipherStep, hw, stepped, setHandling_eq ended]

/-- A tag's step of the order in hand that is not the last (R138, R151). -/
theorem tagStep_goes_on {s : State} {k : KsStep} {h : OrderInHand} {x : Handling} (hq : s.quietQueue)
    (hw : s.core.work = .keyStore k false) (hu : k.user = .order) (hh : s.order.hand = some h)
    (hx : nextHandling s.endStep k.step.result h.handling = some x) (hl : ∀ l, x ≠ .loading l) :
    ∃ t, exec .keyStoreSideCipherStep s = .next t ∧
      SettlesTo { s.endStep with order := { s.endStep.order with hand := some { h with handling := x } } } t := by
  refine ⟨_, orderStep_goes_on hw (.inl hu) hh hx, settleCore_settles ⟨hq, fun y l hy => ?_⟩⟩
  obtain rfl := Option.some.inj hy
  exact hl l

theorem SettlesTo.store {u t : State} (h : SettlesTo u t) : t.store = u.store := by rw [h]

theorem SettlesTo.order {u t : State} (h : SettlesTo u t) : t.order = u.order := by rw [h]

/-- The end of an event changes the Core alone while no step that waits or is presented counts a use (R32, R42). -/
theorem settleCore_settles_of_wanted {s : State} (hq : s.quietQueue) (hw : ∀ u k, s.wantedStep u = some k → k.counts = none) :
    SettlesTo s (settleCore s) := by
  have quiet : (presentSteps s).quietQueue := by
    intro k hk
    rcases List.mem_append.1 hk with waiting | presented
    · exact hq k waiting
    · exact hw k.user k (mem_newSteps.1 (mem_arrange.1 presented)).2
  exact ((presentSteps_settles s).trans (beginStep_settles quiet)).trans (presentSteps_settles _)

/-- A load at its check value presents a step that counts no use (R42). -/
theorem wantedStep_of_check {s : State} {h : OrderInHand} {l : Load} {clear : Block} (hh : s.order.hand = some h)
    (hl : h.handling = .loading l) (hs : l.stage = .check clear) (u : KsUser) (k : KsStep) (hk : s.wantedStep u = some k) :
    k.counts = none := by
  by_contra hc
  obtain ⟨rfl, -⟩ := wantedStep_counted hk hc
  have own : s.wantedStep .load = some l.step := by simp only [State.wantedStep, hh, Option.map_some, hl]
  obtain rfl : k = l.step := Option.some.inj (hk.symm.trans own)
  exact hc (by simp only [Load.step, hs])

/-- A load's unwrap step that is followed by its check value: the order in hand goes on to the check, and the store stays as it was
(R42). -/
theorem loadStep_goes_on {s : State} {k : KsStep} {h : OrderInHand} {l : Load} (hq : s.quietQueue)
    (hw : s.core.work = .keyStore k false) (hu : k.user = .load) (hh : s.order.hand = some h) (hl : h.handling = .loading l)
    (he : l.ends = false) :
    ∃ t, exec .keyStoreSideCipherStep s = .next t ∧
      t.order.hand = some { h with handling := .loading { l with stage := .check (s.endStep.checkedKey l k.step.result) } } ∧
      t.store = s.store := by
  have next : nextHandling s.endStep k.step.result h.handling =
      some (.loading { l with stage := .check (s.endStep.checkedKey l k.step.result) }) := by
    simp only [hl, nextHandling, he, Bool.false_eq_true, if_false]
  have settles := settleCore_settles_of_wanted (s := { s.endStep with order := { s.endStep.order with
      hand := some { h with handling := .loading { l with stage := .check (s.endStep.checkedKey l k.step.result) } } } })
    hq (wantedStep_of_check rfl rfl rfl)
  exact ⟨_, orderStep_goes_on hw (.inr hu) hh next, congrArg OrderUnit.hand settles.order, settles.store⟩

/-! ### The notice whose tag is being computed -/

/-- The notices before this one are ready, and its own tag is being computed by this job (R174). -/
structure State.Computes (s : State) (before : List Notice) (n : Notice) (after : List Notice) (j : TagJob) : Prop where
  notices : s.report.notices = before ++ n :: after
  ready : ∀ x ∈ before, ∃ tag, x.tag = .ready tag
  tag : n.tag = .computing j

theorem replaceJob_append {f : TagJob → NoticeTag} {before after : List Notice} {n : Notice} {j : TagJob}
    (hb : ∀ x ∈ before, ∃ tag, x.tag = .ready tag) (hn : n.tag = .computing j) :
    replaceJob f (before ++ n :: after) = before ++ { n with tag := f j } :: after := by
  induction before with
  | nil => simp only [List.nil_append, replaceJob, hn]
  | cons x before ih =>
    obtain ⟨tag, hx⟩ := hb x List.mem_cons_self
    simp only [List.cons_append, replaceJob, hx, ih fun y hy => hb y (List.mem_cons_of_mem x hy)]

section
variable {s : State} {before after : List Notice} {n : Notice} {j : TagJob} (hc : s.Computes before n after j)
include hc

theorem State.Computes.noticeJob : s.noticeJob = some j := by
  obtain ⟨notices, ready, tag⟩ := hc
  unfold State.noticeJob
  rw [notices]
  clear notices
  induction before with
  | nil => simp only [List.nil_append, List.findSome?_cons, tag]
  | cons x before ih =>
    obtain ⟨t, hx⟩ := ready x List.mem_cons_self
    simpa only [List.cons_append, List.findSome?_cons, hx] using ih fun y hy => ready y (List.mem_cons_of_mem x hy)

theorem State.Computes.setJob (f : TagJob → NoticeTag) :
    s.setJob f = { s with report := { s.report with notices := before ++ { n with tag := f j } :: after } } := by
  rw [State.setJob, hc.notices, replaceJob_append hc.ready hc.tag]

/-- A step of a notice's tag that is not its last (R174). -/
theorem noticeStep_goes_on {k : KsStep} (hw : s.core.work = .keyStore k false) (hu : k.user = .report) (hq : s.quiet)
    (hj : 2 ≤ j.blocks.length) :
    ∃ t, exec .keyStoreSideCipherStep s = .next t ∧
      SettlesTo
        { s.endStep with
          report := { s.endStep.report with
            notices := before ++ { n with tag := .computing (j.next k.step.result) } :: after } } t := by
  have ended : s.endStep.Computes before n after j := ⟨hc.notices, hc.ready, hc.tag⟩
  have stepped : stepKeyStoreSide k.user k.step.result s.endStep =
      some (s.endStep.setJob fun i => .computing (i.next k.step.result)) := by
    simp only [hu, stepKeyStoreSide, ended.noticeJob, isLast_false hj, Bool.false_eq_true, if_false]
  refine ⟨settleCore (s.endStep.setJob fun i => .computing (i.next k.step.result)), ?_, ?_⟩
  · show execKeyStoreSideCipherStep s = _
    simp only [execKeyStoreSideCipherStep, hw, stepped]
  · rw [ended.setJob]
    exact settleCore_settles hq

/-- The last step of a notice's tag (R174). -/
theorem noticeBuilt_ready (hs : s.coreServes .report = true) (hq : s.quiet) (hj : j.blocks.length ≤ 1) :
    ∃ t, exec .noticeBuilt s = .next t ∧
      SettlesTo
        { s.endStep with
          report := { s.endStep.report with
            notices := before ++ { n with tag := .ready (truncateTag s.coreResult) } :: after } } t := by
  have ended : s.endStep.Computes before n after j := ⟨hc.notices, hc.ready, hc.tag⟩
  refine ⟨settleCore (s.endStep.setJob fun _ => .ready (truncateTag s.coreResult)), ?_, ?_⟩
  · show execNoticeBuilt s = _
    simp only [execNoticeBuilt, hc.noticeJob, hs, isLast_true hj, Bool.and_self, if_true]
  · rw [ended.setJob]
    exact settleCore_settles hq

end

/-! ### The last step of an answer's tag -/

theorem answerBuilt_answers {s : State} {h : OrderInHand} {m : Bytes} {j : TagJob} (hh : s.order.hand = some h)
    (hm : h.handling = .answering m j) (hs : s.coreServes .order = true) (hj : j.blocks.length ≤ 1) (hq : s.quietQueue) :
    ∃ t, exec .answerBuilt s = .next t ∧
      SettlesTo
        { s.endStep with
          order := { s.endStep.order with
            hand := some { h with handling := .answered }
            answer := some (sealFrame (m ++ bytesOfTag (truncateTag s.coreResult))) } } t := by
  refine ⟨settleCore { s.endStep with
    order := { s.endStep.order with
      hand := some { h with handling := .answered }
      answer := some (answerFrame m (truncateTag s.coreResult)) } }, ?_, settleCore_settles ⟨hq, fun x l hx => ?_⟩⟩
  · show execAnswerBuilt s = _
    simp only [execAnswerBuilt, hh, hm, hs, isLast_true hj, Bool.and_self, if_true]
  · obtain rfl := Option.some.inj hx
    simp

/-- Settles O55. -/
theorem keyStoreSideStepsGoOn : Obligations.KeyStoreSideStepsGoOn := by
  constructor
  · intro s k hq u gives handling
    constructor
    · intro hw hquiet
      refine ⟨settleCore u, ?_, settleCore_settles hquiet⟩
      show execKeyStoreSideCipherStep s = _
      simp only [execKeyStoreSideCipherStep, hw]
      rfl
    intro hw v
    refine ⟨?_, ?_, ?_, ?_, ?_⟩
    · intro h n j hu hh hc hj
      exact tagStep_goes_on hq hw hu hh (by simp only [hc, nextHandling, isLast_false hj]; rfl) (by simp)
    · intro h m j hu hh hc hj
      exact tagStep_goes_on hq hw hu hh (by simp only [hc, nextHandling, isLast_false hj]; rfl) (by simp)
    · rintro h kind slot key wrapped c n zeroised hu hh hl rfl
      exact loadStep_goes_on hq hw hu hh hl rfl
    · rintro h kind slot key wrapped n c check ceiling label zeroised hu hh hl rfl
      exact loadStep_goes_on hq hw hu hh hl rfl
    · intro before n after j hu hquiet hns hready htag hj
      exact noticeStep_goes_on ⟨hns, hready, htag⟩ hw hu hquiet hj
  · intro s u
    constructor
    · intro h m j hh hm hs hj hq
      exact answerBuilt_answers hh hm hs hj hq
    · intro before n after j hns hready htag hs hj hquiet
      exact noticeBuilt_ready ⟨hns, hready, htag⟩ hs hquiet hj

end Sys2Proof.Machine
end

section
/-! Proofs. How an order is met, screened or authenticated (R36, R138, R139, R141, R150). -/

namespace Sys2Proof.Machine

/-! ### The rule of a code -/

/-- Two rules screen alike: the same known code, parameter bytes and custody states (R140). -/
structure OrderRule.Alike (r q : OrderRule) : Prop where
  known : r.known = q.known
  fits : r.fits = q.fits
  passed : r.passed = q.passed

theorem OrderRule.Alike.screen {r q : OrderRule} (h : r.Alike q) (x : OrderInHand) (s : State) : r.screen x s = q.screen x s := by
  simp only [OrderRule.screen, h.known, h.fits, h.passed]

/-- No rule of the catalogue has a code that 12.4 does not list. -/
theorem ruleOf_unknown {c : Byte} (h : unknownRule.matching c = true) : ruleOf c = unknownRule := by
  have listed : ∀ i : Fin 256, unknownRule.matching (.ofFin i) = true →
      (orderRules.find? fun r => r.matching (.ofFin i)).isNone = true := by decide +kernel
  have none_found : (orderRules.find? fun r => r.matching c) = none := Option.isNone_iff_eq_none.1 (listed c.toFin h)
  rw [ruleOf, none_found]
  rfl

/-- The rule found for a code screens like the rule of the row with that code; the contact is no part of the screening (R142). -/
theorem ruleOf_alike {i : Instr} {rule : OrderRule} {c : Byte} (hi : orderRule i = some rule) (hm : rule.matching c = true) :
    (ruleOf c).Alike rule := by
  cases i <;> cases hi
  case unknownOrderCode => rw [ruleOf_unknown hm]; exact ⟨rfl, rfl, rfl⟩
  all_goals
    obtain rfl := eq_of_beq hm
    exact ⟨rfl, rfl, rfl⟩

theorem ruleOf_loadClear : ruleOf 0x03 = loadClearRule true := rfl

/-- An order of a known code has a body long enough to carry it (R151, R190; log 18). -/
theorem code_of_known {i : Instr} {rule : OrderRule} {h : OrderInHand} (hi : orderRule i = some rule)
    (hm : rule.matching h.code = true) (hk : rule.known = true) : h.code = byteAt h.body 0 := by
  have long : 9 ≤ h.body.length := by
    by_contra short
    have code : h.code = 0 := if_pos (not_le.1 short)
    rw [code] at hm
    have unknown : (ruleOf 0).known = false := by rw [ruleOf_unknown (by decide)]; rfl
    rw [(ruleOf_alike hi hm).known, hk] at unknown
    cases unknown
  exact if_neg (not_lt.2 long)

/-! ### The screening in FACTORY and ZEROISED -/

section
variable {rule : OrderRule} {h : OrderInHand} {s : State}

theorem screen_unknown (hk : rule.known = false) : rule.screen h s = .error .noSuch := by
  simp only [OrderRule.screen, hk]; rfl

theorem screen_misfit (hk : rule.known = true) (hf : rule.fits h.params = false) : rule.screen h s = .error .range := by
  simp only [OrderRule.screen, hk, hf]; rfl

theorem screen_not_admitted (hk : rule.known = true) (hf : rule.fits h.params = true) (hp : rule.passed s.store.custody = false) :
    rule.screen h s = .error (custodyRefusal s.store.custody) := by
  simp only [OrderRule.screen, hk, hf, hp]; rfl

theorem screen_passes (hk : rule.known = true) (hf : rule.fits h.params = true) (hp : rule.passed s.store.custody = true) :
    rule.screen h s = .ok () := by
  simp only [OrderRule.screen, hk, hf, hp]; rfl

theorem handUntagged_refused {r : OrderResult} (e : (ruleOf h.code).screen h s = .error r) :
    handUntagged h s = buildAnswer h r [] false s := by
  simp only [handUntagged, e]

theorem handUntagged_passed (e : (ruleOf h.code).screen h s = .ok ()) :
    handUntagged h s =
      s.hold { h with handling := if h.code = 0x03 then .checking (blockOfBytes (sliceBytes h.params 1 16)) else .screened } := by
  simp only [handUntagged, e]

/-- The key that a LOAD CLEAR carries stands in its body after the code and the slot (R9). -/
theorem loadClear_key (hf : (loadClearRule true).fits h.params = true) : sliceBytes h.params 1 16 = sliceBytes h.body 2 16 := by
  have width : h.params.length = 20 := of_decide_eq_true hf
  simp only [OrderInHand.params, sliceBytes, List.length_take, List.length_drop] at width ⊢
  rw [List.drop_take, List.drop_drop, List.take_take]
  congr 1
  omega

end

theorem handOver_untagged {frame : Bytes} {s : State} (hc : s.store.custody = .factory ∨ s.store.custody = .zeroised) :
    handOver frame false s =
      handUntagged { header := frame.take 8, body := frameBody frame, broadcast := false, handling := .untagged } s := by
  rcases hc with hc | hc <;> simp [handOver, hc]

/-- How a directed order is met in FACTORY and ZEROISED, for the rule of any row with its code (R141). -/
theorem handUntagged_screens {i : Instr} {rule : OrderRule} {h : OrderInHand} {s : State}
    (hc : s.store.custody = .factory ∨ s.store.custody = .zeroised) (hi : orderRule i = some rule)
    (hm : rule.matching h.code = true) :
    (rule.known = false → handUntagged h s = buildAnswer h .noSuch [] false s) ∧
    (rule.known = true → rule.fits h.params = false → handUntagged h s = buildAnswer h .range [] false s) ∧
    (rule.known = true → rule.fits h.params = true →
      (rule.passed s.store.custody = false → handUntagged h s = buildAnswer h .notPermitted [] false s) ∧
      (rule.passed s.store.custody = true →
        (byteAt h.body 0 = 0x03 →
          handUntagged h s = s.hold { h with handling := .checking (blockOfBytes (sliceBytes h.body 2 16)) }) ∧
        (byteAt h.body 0 ≠ 0x03 → handUntagged h s = s.hold { h with handling := .screened }))) := by
  have alike := ruleOf_alike hi hm
  refine ⟨fun hk => handUntagged_refused ?_, fun hk hf => handUntagged_refused ?_,
    fun hk hf => ⟨fun hp => handUntagged_refused ?_, fun hp => ?_⟩⟩
  · rw [alike.screen, screen_unknown hk]
  · rw [alike.screen, screen_misfit hk hf]
  · rw [alike.screen, screen_not_admitted hk hf hp]
    rcases hc with hc | hc <;> rw [hc] <;> rfl
  · have code := code_of_known hi hm hk
    rw [handUntagged_passed (by rw [alike.screen, screen_passes hk hf hp]), ← code]
    constructor
    · intro e
      rw [e, ruleOf_loadClear] at alike
      rw [if_pos e, loadClear_key (by rw [alike.fits]; exact hf)]
    · intro e
      rw [if_neg e]

/-! ### Authentication -/

theorem handOver_tagged {frame : Bytes} {s : State} (hc : s.store.custody = .operational ∨ s.store.custody = .dormant) :
    handOver frame false s =
      s.hold
        { header := frame.take 8, body := frameBody frame, broadcast := false,
          handling := s.authentication (frame.take 8) (frameBody frame) } := by
  rcases hc with hc | hc <;> simp [handOver, hc]

section
variable {s : State} {header body : Bytes}

theorem authentication_unmatched (h : ∀ n, authSlot body = some n → (s.slot n).state ≠ .active) :
    s.authentication header body = .unmatched := by
  unfold State.authentication
  split
  · rfl
  · next n hn => simp only [State.activeKey, if_neg (h n hn)]

theorem authentication_comparing {n : SlotNo} {key : Block} (hn : authSlot body = some n) (ha : (s.slot n).state = .active)
    (hk : (s.slot n).key = some key) :
    s.authentication header body = .comparing n (TagJob.start key (header ++ body.take (body.length - 8))) := by
  simp only [State.authentication, hn, State.activeKey, ha, if_true, hk]

theorem authSlot_short (h : body.length < 8) : authSlot body = none := if_pos h

/-- Every order but a GRANT is tagged under slot 0 (R138). -/
theorem authSlot_plain (h8 : 8 ≤ body.length) (hg : ¬(9 ≤ body.length ∧ byteAt body 0 = 0x02)) : authSlot body = some 0 := by
  rw [authSlot, if_neg (not_lt.2 h8), if_neg hg]

/-- A GRANT is tagged under the slot of the custodian it names, if it names one (R138). -/
theorem authSlot_grant (h9 : 9 ≤ body.length) (hg : byteAt body 0 = 0x02) {n : SlotNo} :
    authSlot body = some n ↔ 10 ≤ body.length ∧ (byteAt body 1).toNat = n.val ∧ 1 ≤ n.val ∧ n.val ≤ 6 := by
  rw [authSlot, if_neg (by omega), if_pos ⟨h9, hg⟩]
  split
  · split
    · next h10 custodian =>
      rw [Option.some.injEq, Fin.ext_iff]
      constructor
      · intro e
        have named : (byteAt body 1).toNat = n.val := e
        exact ⟨h10, named, by omega, by omega⟩
      · exact fun e => e.2.1
    · next h10 none_named =>
      constructor
      · intro e; cases e
      · intro e; omega
  · next h10 =>
    constructor
    · intro e; cases e
    · intro e; omega

end

/-! ### How an order stands -/

/-- An order whose tag's last step is ending stands by the comparison and its number (R138, R139). -/
theorem standing_comparing {s : State} {h : OrderInHand} {n : SlotNo} {job : TagJob} (hc : h.handling = .comparing n job)
    (hl : job.isLast = true) (hs : s.coreServes .order = true) :
    s.standing h =
      if truncateTag s.coreResult = h.carriedTag ∧ (s.slot n).state = .active then
        if s.store.lastOrder < h.number then some .accepted else some .stale
      else some .badTag := by
  simp only [State.standing, hc, hl, hs, Bool.and_self, if_true]

/-- Settles O21. -/
theorem ordersAreAuthenticated : Obligations.OrdersAreAuthenticated := by
  refine ⟨?_, ?_, ?_⟩
  · intro s frame body met message plain
    refine ⟨rfl, fun i rule hc hi hm => ?_, fun hc => ?_⟩
    · rw [handOver_untagged hc]
      exact handUntagged_screens hc hi hm
    rw [handOver_tagged hc]
    refine ⟨fun key h8 hg ha hk => ?_, fun n key h10 hg h1 h6 hb ha hk => ?_, fun hn => ?_⟩
    · rw [authentication_comparing (authSlot_plain h8 hg) ha hk]; rfl
    · rw [authentication_comparing ((authSlot_grant (by omega) hg).2 ⟨h10, hb, h1, h6⟩) ha hk]; rfl
    · rw [authentication_unmatched fun n e => ?_]
      · rfl
      rcases hn with h8 | ⟨hg, ha⟩ | ⟨h9, hg⟩ | ⟨h10, hg, hb⟩
      · rw [authSlot_short h8] at e; cases e
      · have h8 : 8 ≤ body.length := by
          by_contra short
          rw [authSlot_short (not_le.1 short)] at e; cases e
        obtain rfl : (0 : SlotNo) = n := Option.some.inj ((authSlot_plain h8 hg).symm.trans e)
        exact ha
      · have := ((authSlot_grant (by omega) hg).1 e).1
        omega
      · obtain ⟨-, hn, h1, h6⟩ := (authSlot_grant (by omega) hg).1 e
        rcases hb with hb | hb | ⟨m, hm, ha⟩
        · omega
        · omega
        · obtain rfl : m = n := Fin.ext (by omega)
          exact ha
  · intro s h n job hc hl hs matching
    have above : s.store.lastOrder < h.number ↔ s.store.lastOrder.toNat < h.number.toNat := BitVec.lt_def
    rw [standing_comparing hc hl hs]
    by_cases hm : matching
    · by_cases ha : s.store.lastOrder < h.number
      · rw [if_pos hm, if_pos ha]
        simp [hm, above.1 ha]
      · rw [if_pos hm, if_neg ha]
        rw [above, not_lt] at ha
        simp [hm, ha]
    · rw [if_neg hm]
      simp [hm]
  · intro s h
    refine ⟨fun e => ?_, fun e => ?_, fun e => ?_, fun key e => ?_⟩ <;> simp only [State.standing, e]
    simp

end Sys2Proof.Machine
end

section
/-! Proofs. What an event may do to the tables and queues (R43, R60, R100, R129, R130, R144, R163, R174) and to the books of the runs
(R62). `Kept` says that a change of the unit keeps both invariants; `Confined` that no table has grown, and `Calm` that moreover the Run
Table is as it was, which is what most operations do. -/

namespace Sys2Proof.Machine

/-! ### What the two invariants read -/

/-- No table and no queue has grown, but for the notices in their 16 places; no limit has changed and no credit has been taken. -/
structure Confined (s t : State) : Prop where
  table : t.runs.table.length ≤ s.runs.table.length
  staging : t.runs.staging.length ≤ s.runs.staging.length
  notices : s.report.notices.length ≤ 16 → t.report.notices.length ≤ 16
  onward : t.link.onwardQueue.length ≤ s.link.onwardQueue.length
  relay : t.link.relayQueue.length ≤ s.link.relayQueue.length
  gate : t.order.gate.grants.length ≤ s.order.gate.grants.length
  record : t.tamper.record.length ≤ s.tamper.record.length
  limit : ∀ l, (t.line l).limit = (s.line l).limit
  credit : ∀ l, (t.line l).occupied ≤ (s.line l).occupied

/-- The Run Table is as it was, too. -/
structure Calm (s t : State) : Prop extends Confined s t where
  runs : t.runs.table = s.runs.table

/-- A change of the unit keeps the bounds and the books. -/
structure Kept (s t : State) : Prop where
  bounds : Bounded s → Bounded t
  books : BooksKept s → BooksKept t

theorem Confined.refl (s : State) : Confined s s :=
  ⟨le_rfl, le_rfl, id, le_rfl, le_rfl, le_rfl, le_rfl, fun _ => rfl, fun _ => le_rfl⟩

theorem Confined.trans {s t u : State} (h : Confined s t) (k : Confined t u) : Confined s u :=
  ⟨k.table.trans h.table, k.staging.trans h.staging, k.notices ∘ h.notices, k.onward.trans h.onward, k.relay.trans h.relay,
    k.gate.trans h.gate, k.record.trans h.record, fun l => (k.limit l).trans (h.limit l),
    fun l => (k.credit l).trans (h.credit l)⟩

theorem Confined.bounded {s t : State} (h : Confined s t) (b : Bounded s) : Bounded t where
  table := h.table.trans b.table
  staging := h.staging.trans b.staging
  notices := h.notices b.notices
  onward := h.onward.trans b.onward
  relay := h.relay.trans b.relay
  gate := h.gate.trans b.gate
  record := h.record.trans b.record
  limits := fun l => h.limit l ▸ b.limits l
  credit := fun l => (h.credit l).trans (b.credit l)

theorem Calm.refl (s : State) : Calm s s := ⟨.refl s, rfl⟩

theorem Calm.trans {s t u : State} (h : Calm s t) (k : Calm t u) : Calm s u :=
  ⟨h.toConfined.trans k.toConfined, k.runs.trans h.runs⟩

theorem BooksKept.of_table {s t : State} (h : BooksKept s) (e : t.runs.table = s.runs.table) : BooksKept t :=
  ⟨e ▸ h.unique, e ▸ h.lawful⟩

theorem Confined.kept {s t : State} (h : Confined s t) (k : BooksKept s → BooksKept t) : Kept s t := ⟨h.bounded, k⟩

theorem Calm.kept {s t : State} (h : Calm s t) : Kept s t := h.toConfined.kept fun k => k.of_table h.runs

theorem Kept.refl (s : State) : Kept s s := ⟨id, id⟩

theorem Kept.trans {s t u : State} (h : Kept s t) (k : Kept t u) : Kept s u := ⟨k.bounds ∘ h.bounds, k.books ∘ h.books⟩

theorem ite_kept {c : Prop} [Decidable c] {s t u : State} (ht : c → Kept s t) (hu : ¬c → Kept s u) :
    Kept s (if c then t else u) := by
  split
  · next h => exact ht h
  · next h => exact hu h

theorem foldl_kept {α : Type} {f : State → α → State} (hf : ∀ t a, Kept t (f t a)) (xs : List α) (s : State) :
    Kept s (xs.foldl f s) := by
  induction xs generalizing s with
  | nil => exact .refl s
  | cons a rest ih => exact (hf s a).trans (ih _)

/-- The parts of the unit that the two invariants read. -/
def State.tables (s : State) : RunController × List Notice × List Bytes × List Bytes × Gate × List TamperEntry × Vector Line 8 :=
  (s.runs, s.report.notices, s.link.onwardQueue, s.link.relayQueue, s.order.gate, s.tamper.record, s.dispatch.lines)

/-- A change of the unit that leaves these parts as they are. -/
theorem Calm.of_tables {s t : State} (h : t.tables = s.tables) : Calm s t := by
  simp only [State.tables, Prod.mk.injEq] at h
  obtain ⟨runs, notices, onward, relay, gate, record, lines⟩ := h
  exact {
    table := by rw [runs]
    staging := by rw [runs]
    notices := by rw [notices]; exact id
    onward := by rw [onward]
    relay := by rw [relay]
    gate := by rw [gate]
    record := by rw [record]
    limit := fun l => by simp only [State.line, lines]
    credit := fun l => by simp only [State.line, lines, le_refl]
    runs := by rw [runs] }

/-! ### Notices -/

theorem offer_calm (k : NoticeKind) (v : Byte) (x : Bytes) (s : State) : Calm s (offer k v x s) := by
  have notices : s.report.notices.length ≤ 16 → (offer k v x s).report.notices.length ≤ 16 := by
    intro h
    obtain ⟨e, -⟩ | ⟨n, -, -, room, e⟩ | ⟨-, e⟩ := offer_cases k v x s <;> rw [e]
    · exact h
    · simp only [List.length_append, List.length_singleton]; omega
    · exact h
  have rest : Calm s { offer k v x s with report := s.report } := .of_tables (by simp [State.tables])
  exact { rest with notices := notices }

theorem foldl_calm {α : Type} {f : State → α → State} (hf : ∀ t a, Calm t (f t a)) (xs : List α) (s : State) :
    Calm s (xs.foldl f s) := by
  induction xs generalizing s with
  | nil => exact .refl s
  | cons a rest ih => exact (hf s a).trans (ih _)

theorem lineNotices_calm (was s : State) : Calm s (lineNotices was s) := by
  refine foldl_calm (fun t l => ?_) _ s
  split
  · exact .refl t
  · exact offer_calm _ _ _ t

/-! ### Updates of one record -/

theorem setLine_calm {s : State} {l : LineNo} {x : Line} (hl : x.limit = (s.line l).limit)
    (ho : x.occupied ≤ (s.line l).occupied) : Calm s (s.setLine l x) where
  table := le_rfl
  staging := le_rfl
  notices := id
  onward := le_rfl
  relay := le_rfl
  gate := le_rfl
  record := le_rfl
  limit := fun m => by
    rw [setLine_line]; split
    · next e => rw [← e, hl]
    · rfl
  credit := fun m => by
    rw [setLine_line]; split
    · next e => rw [← e]; exact ho
    · exact le_rfl
  runs := rfl

theorem updateRun_confined (n : Word) (f : Run → Run) (s : State) : Confined s (s.updateRun n f) where
  table := by simp
  staging := le_rfl
  notices := id
  onward := le_rfl
  relay := le_rfl
  gate := le_rfl
  record := le_rfl
  limit := fun _ => rfl
  credit := fun _ => le_rfl

theorem emptyGate_calm (s : State) : Calm s s.emptyGate where
  table := le_rfl
  staging := le_rfl
  notices := id
  onward := le_rfl
  relay := le_rfl
  gate := Nat.zero_le _
  record := le_rfl
  limit := fun _ => rfl
  credit := fun _ => le_rfl
  runs := rfl

theorem startIdle_calm (s : State) : Calm s s.startIdle := .of_tables (by simp [State.tables])

/-! ### The books of several runs -/

/-- Each run of the table is replaced by one of its number, with books that are lawful if the run's were. -/
theorem BooksKept.map {s t : State} {g : Run → Run} (h : BooksKept s) (ht : t.runs.table = s.runs.table.map g)
    (hg : ∀ r ∈ s.runs.table, r.Lawful → (g r).Lawful) (hn : ∀ r ∈ s.runs.table, (g r).number = r.number) : BooksKept t where
  unique := by
    have numbers : s.runs.table.map (Run.number ∘ g) = s.runs.table.map Run.number := List.map_congr_left hn
    rw [ht, List.map_map, numbers]
    exact h.unique
  lawful := by
    rw [ht]
    intro y hy
    obtain ⟨r, hr, rfl⟩ := List.mem_map.mp hy
    exact hg r hr (h.lawful r hr)

/-- A run number names one run. -/
theorem BooksKept.run_eq {s : State} (h : BooksKept s) {n : Word} {r x : Run} (hr : s.run n = some r) (hx : x ∈ s.runs.table)
    (e : x.number = n) : x = r := by
  have hx' := run_of_mem h.unique hx
  rw [e, hr] at hx'
  exact (Option.some.inj hx').symm

/-- A run of the table is changed, and its books stay lawful. -/
theorem BooksKept.update {s t : State} {n : Word} {f : Run → Run} (h : BooksKept s)
    (ht : t.runs.table = (s.updateRun n f).runs.table) (hf : ∀ r ∈ s.runs.table, r.number = n → r.Lawful → (f r).Lawful)
    (hn : ∀ r, (f r).number = r.number) : BooksKept t := by
  refine h.map ht (fun r hr hl => ?_) fun r _ => ?_
  · split
    · next e => exact hf r hr (beq_iff_eq.mp e) hl
    · exact hl
  · split
    · exact hn r
    · rfl

theorem updateRun_kept {s : State} {n : Word} {f : Run → Run} (hf : ∀ r, r.Lawful → (f r).Lawful)
    (hn : ∀ r, (f r).number = r.number) : Kept s (s.updateRun n f) :=
  (updateRun_confined n f s).kept fun h => h.update rfl (fun r _ _ => hf r) hn

/-- Two changes of one run, with no other change of the table between them, are one. -/
theorem updateRun_twice {s t : State} {n : Word} {f g : Run → Run} (hn : ∀ r, (f r).number = r.number)
    (ht : t.runs.table = (s.updateRun n f).runs.table) :
    (t.updateRun n g).runs.table = (s.updateRun n (g ∘ f)).runs.table := by
  simp only [updateRun_table, ht, List.map_map]
  refine List.map_congr_left fun r _ => ?_
  by_cases e : r.number = n <;> simp [e, hn]

end Sys2Proof.Machine
end

section
/-! Proofs. What each operation of the Run Controller does to the books of one run (R45, R52, R53, R56, R62). -/

namespace Sys2Proof.Machine

/-! ### The positions that are OUT -/

/-- One where a position is in a state, zero elsewhere: what a ring entry adds to the count of that state. -/
def entryCount (st : PosState) (e : Option Position) : Nat := if e.map Position.state = some st then 1 else 0

/-- A ring entry is replaced: the count loses what the old entry added and gains what the new one adds. -/
theorem countState_setPosition (r : Run) (o : Nat) (e : Option Position) (st : PosState) :
    (r.setPosition o e).countState st + entryCount st r.window[(ringEntry o).val] = r.countState st + entryCount st e := by
  have hi : (ringEntry o).val < r.window.toList.length := by simp
  have old := List.boole_getElem_le_countP (p := fun e => decide (e.map Position.state = some st)) (l := r.window.toList) hi
  rw [countState_eq, countState_eq]
  simp only [Run.setPosition, Vector.toList_set, List.countP_set hi, Vector.getElem_toList, decide_eq_true_eq] at old ⊢
  unfold entryCount
  omega

theorem position_entry {r : Run} {o : Nat} {p : Position} (h : r.position o = some p) : r.window[(ringEntry o).val] = some p := by
  unfold Run.position at h
  split at h
  · exact h
  · cases h

/-- A position of the window is replaced by one, as few OUT as before. -/
theorem countOut_setPosition {r : Run} {o : Nat} {p q : Position} (hp : r.position o = some p) :
    (r.setPosition o (some q)).countState .out + (if p.state = .out then 1 else 0) =
      r.countState .out + if q.state = .out then 1 else 0 := by
  have h := countState_setPosition r o (some q) .out
  rw [position_entry hp] at h
  simpa [entryCount] using h

theorem countOut_mapPosition {r : Run} {o : Nat} {f : Position → Position} (hf : ∀ p, (f p).state = .out ↔ p.state = .out) :
    (r.mapPosition o f).countState .out = r.countState .out := by
  unfold Run.mapPosition
  split
  · rfl
  · next p hp =>
    have h := countOut_setPosition (q := f p) hp
    simpa [hf] using h

/-! ### Admission and withdrawal -/

/-- The window alone changes, with as many positions OUT. -/
theorem Run.Lawful.of_window {r : Run} (h : r.Lawful) {w : Vector (Option Position) 64}
    (hw : ({ r with window := w } : Run).countState .out = r.countState .out) : ({ r with window := w } : Run).Lawful :=
  { h with cards := hw ▸ h.cards }

theorem mapPosition_lawful {r : Run} {o : Nat} {f : Position → Position} (hf : ∀ p, (f p).state = .out ↔ p.state = .out)
    (h : r.Lawful) : (r.mapPosition o f).Lawful := by
  rw [mapPosition_only]
  refine h.of_window ?_
  rw [← mapPosition_only, countOut_mapPosition hf]

theorem unstage_out (p : Position) : p.unstage.state = .out ↔ p.state = .out := by
  unfold Position.unstage
  split
  · next h => rw [h]; dsimp only; split <;> simp
  · rfl

/-- A position that is not OUT is replaced by one that is not. -/
theorem setPosition_lawful {r : Run} {o : Nat} {p q : Position} (hp : r.position o = some p) (ho : p.state ≠ .out)
    (hq : q.state ≠ .out) (h : r.Lawful) : (r.setPosition o (some q)).Lawful := by
  refine h.of_window ?_
  have count := countOut_setPosition (q := q) hp
  simp only [ho, hq, if_false, Nat.add_zero] at count
  exact count

/-! ### Hold causes -/

theorem addCause_lawful {f : HoldCauses → HoldCauses} (he : ∀ h, (f h).isEmpty = false)
    (ho : ∀ h : HoldCauses, h.overspoil = true → (f h).overspoil = true) {r : Run} (h : r.Lawful) : (r.addCause f).Lawful where
  cards := h.cards
  low := h.low
  allowance := h.allowance
  overspoil := fun hs => ho _ (h.overspoil hs)
  live := fun hl => by simp only [Run.addCause] at hl; split_ifs at hl; contradiction
  held := fun _ => he _

theorem addKey_lawful {r : Run} (h : r.Lawful) : (r.addCause fun x => { x with key := true }).Lawful :=
  addCause_lawful (f := fun x => { x with key := true }) (fun x => by simp [HoldCauses.isEmpty]) (fun _ => id) h

/-- Causes are removed, OVERSPOIL only when the spoils lie within the allowance (R45, R53). -/
theorem dropCauses_lawful {f : HoldCauses → HoldCauses} {r : Run} (h : r.Lawful)
    (he : r.holds.isEmpty = true → (f r.holds).isEmpty = true)
    (ho : r.allowance < r.spoiled → (f r.holds).overspoil = true) : (r.dropCauses f).Lawful where
  cards := h.cards
  low := h.low
  allowance := h.allowance
  overspoil := ho
  live := fun hl => by
    simp only [Run.dropCauses] at hl ⊢
    split_ifs at hl with c
    · exact c.2
    · exact he (h.live hl)
  held := fun hh => by
    simp only [Run.dropCauses] at hh ⊢
    split_ifs at hh with c
    simpa [hh] using c

/-- After a spoil the comparison of R52 makes the books lawful again. -/
theorem overspoilTest_lawful {r y : Run} (h : r.Lawful)
    (cards : y.issues + y.reissues = y.done + y.spoiled + y.countState .out) (low : y.low = r.low)
    (quantity : y.quantity = r.quantity) (allowance : y.allowance = r.allowance) (state : y.state = r.state)
    (holds : y.holds = r.holds) : y.overspoilTest.Lawful := by
  unfold Run.overspoilTest
  split
  · exact {
      cards := cards
      low := by show y.low ≤ y.quantity; rw [low, quantity]; exact h.low
      allowance := by show y.allowance ≤ y.quantity; rw [allowance, quantity]; exact h.allowance
      overspoil := fun _ => rfl
      live := fun hl => by simp only [Run.addCause] at hl; split_ifs at hl; contradiction
      held := fun _ => by simp [Run.addCause, HoldCauses.isEmpty] }
  · next within => exact {
      cards := cards
      low := by rw [low, quantity]; exact h.low
      allowance := by rw [allowance, quantity]; exact h.allowance
      overspoil := fun hs => absurd hs within
      live := fun hl => by rw [holds]; exact h.live (state ▸ hl)
      held := fun hh => by rw [holds]; exact h.held (state ▸ hh) }

/-! ### Cards that come back -/

theorem spoil_state_ne_out (p : Position) : p.spoil.state ≠ .out := by unfold Position.spoil; dsimp only; split <;> simp

theorem spoil_lawful {r : Run} {o : Nat} {p : Position} (hp : r.position o = some p) (ho : p.state = .out) (h : r.Lawful) :
    (r.spoil o p).overspoilTest.Lawful := by
  have count := countOut_setPosition (q := p.spoil) hp
  simp only [ho, spoil_state_ne_out, if_true, if_false] at count
  refine overspoilTest_lawful h ?_ rfl rfl rfl rfl rfl
  have := h.cards
  show r.issues + r.reissues = r.done + (r.spoiled + 1) + (r.setPosition o (some p.spoil)).countState .out
  omega

theorem lapse_lawful {r : Run} {o : Nat} {p : Position} {l : LineNo} (hp : r.position o = some p) (ho : p.state = .out)
    (h : r.Lawful) : (r.lapse o p l).overspoilTest.Lawful := by
  have count := countOut_setPosition (q := p.lapse l) hp
  have gone : (p.lapse l).state ≠ .out := spoil_state_ne_out p
  simp only [ho, gone, if_true, if_false] at count
  refine overspoilTest_lawful h ?_ rfl rfl rfl rfl rfl
  have := h.cards
  show r.issues + r.reissues = r.done + (r.spoiled + 1) + (r.setPosition o (some (p.lapse l))).countState .out
  omega

theorem finish_lawful {r : Run} {o : Nat} {p : Position} (hp : r.position o = some p) (ho : p.state = .out) (h : r.Lawful) :
    (r.finish o p).Lawful := by
  have count := countOut_setPosition (q := p.finish) hp
  simp only [ho, Position.finish, if_true, reduceCtorEq, if_false] at count
  have := h.cards
  refine { h with cards := ?_ }
  show r.issues + r.reissues = r.done + 1 + r.spoiled + (r.setPosition o (some p.finish)).countState .out
  simp only [Position.finish]
  omega

/-- A card goes out: one issue or reissue more, one position OUT more (R62). -/
theorem goOut_lawful (o : Nat) (l : LineNo) (now : Word) {r : Run} (h : r.Lawful) : (r.goOut o l now).Lawful := by
  unfold Run.goOut
  split
  · exact h
  · next p hp =>
    split
    · next hs =>
      have count := countOut_setPosition (q := p.goOut l now) hp
      simp only [hs, Position.goOut, if_true, reduceCtorEq, if_false] at count
      have := h.cards
      refine { h with cards := ?_ }
      simp only [Position.goOut]
      show (if p.attempt = 0 then r.issues + 1 else r.issues) + (if p.attempt = 0 then r.reissues else r.reissues + 1) =
        r.done + r.spoiled + (r.setPosition o _).countState .out
      split <;> omega
    · exact h

/-! ### The low mark, completion and closing -/

theorem lowSettled_iff (r : Run) :
    r.lowSettled = true ↔ ∃ p, r.position r.low = some p ∧ (p.state = .done ∨ p.state = .voided) := by
  unfold Run.lowSettled
  split <;> simp_all [Position.settled]

/-- The low mark moves past a settled position; the entry it releases was not OUT, and the reused one is not (R56). -/
theorem raiseLow_lawful {r : Run} (hs : r.lowSettled = true) (h : r.Lawful) : r.raiseLow.Lawful := by
  obtain ⟨p, hp, settled⟩ := (lowSettled_iff r).mp hs
  have old : entryCount .out r.window[(ringEntry r.low).val] = 0 := by
    rw [position_entry hp]; obtain e | e := settled <;> simp [entryCount, e]
  have fresh : entryCount .out (if r.low + 64 < r.quantity then some Position.fresh else none) = 0 := by
    split <;> simp [entryCount, Position.fresh]
  have count := countState_setPosition r r.low (if r.low + 64 < r.quantity then some Position.fresh else none) .out
  have inside : r.low < r.quantity := by
    have := inWindow_of_position hp
    simp only [Run.inWindow, Bool.and_eq_true, decide_eq_true_eq] at this
    exact this.2
  have := h.cards
  exact { h with
    cards := by
      show r.issues + r.reissues = r.done + r.spoiled + (r.setPosition r.low _).countState .out
      omega
    low := inside }

theorem advanceLow_lawful (k : Nat) {r : Run} (h : r.Lawful) : (r.advanceLow k).Lawful := by
  induction k generalizing r with
  | zero => exact h
  | succ k ih =>
    unfold Run.advanceLow
    split
    · next hs => exact ih (raiseLow_lawful hs h)
    · exact h

theorem advance_lawful {r : Run} (h : r.Lawful) : r.advance.Lawful := advanceLow_lawful 64 h

/-- A run that is CLOSED needs no agreement of state and causes (R45). -/
theorem Run.Lawful.closed {r : Run} (h : r.Lawful) (u : Option Nat) :
    ({ r with state := .closed, unissued := u } : Run).Lawful :=
  { h with live := nofun, held := nofun }

theorem completed_lawful {r : Run} (h : r.Lawful) : r.completed.Lawful := h.closed _

theorem countOut_voidSpoiled (r : Run) : r.voidSpoiled.countState .out = r.countState .out := by
  rw [countState_eq, countState_eq]
  simp only [Run.voidSpoiled, Vector.toList_map, List.countP_map]
  refine List.countP_congr fun e _ => ?_
  rcases e with _ | p
  · rfl
  · by_cases hs : p.state = .spoiled <;> simp [hs]

theorem voidSpoiled_lawful {r : Run} (h : r.Lawful) : r.voidSpoiled.Lawful :=
  { h with cards := (countOut_voidSpoiled r).symm ▸ h.cards }

theorem close_lawful {r : Run} (h : r.Lawful) : r.close.Lawful := (advance_lawful (voidSpoiled_lawful h)).closed _

/-! ### The orders -/

theorem closing_lawful {r : Run} (h : r.Lawful) : ({ r with state := .closing } : Run).Lawful :=
  { h with live := nofun, held := nofun }

theorem hold_lawful {r : Run} (h : r.Lawful) : r.hold.Lawful :=
  { h with live := nofun, held := fun _ => by simp [Run.hold, HoldCauses.isEmpty] }

theorem release_lawful (usable : Bool) {r : Run} (h : r.Lawful) : (r.release usable).Lawful := by
  unfold Run.release
  split
  · exact { h with
      live := fun hl => by
        by_contra hne
        simp [hne] at hl
      held := fun hh => by
        by_contra hne
        simp [hne] at hh }
  · refine dropCauses_lawful h (fun he => ?_) h.overspoil
    simp_all [HoldCauses.isEmpty]
  · exact h

/-- ADD ALLOWANCE raises the allowance to Q at most, and removes OVERSPOIL only when the spoils lie within it (R53). -/
theorem raiseAllowance_lawful (extra : Nat) {r : Run} (h : r.Lawful) : (r.raiseAllowance extra).Lawful := by
  have raised : r.allowance ≤ min (r.allowance + extra) r.quantity := le_min (Nat.le_add_right _ _) h.allowance
  have lawful : ({ r with allowance := min (r.allowance + extra) r.quantity } : Run).Lawful :=
    { h with allowance := min_le_right _ _, overspoil := fun hs => h.overspoil (raised.trans_lt hs) }
  unfold Run.raiseAllowance
  dsimp only
  split
  · next within =>
    refine dropCauses_lawful lawful (fun he => ?_) fun hs => absurd hs (not_lt.mpr within)
    simp_all [HoldCauses.isEmpty]
  · exact lawful

theorem countState_fresh (q : Nat) (r : Run) (hw : r.window = freshWindow q) : r.countState .out = 0 := by
  rw [countState_eq, List.countP_eq_zero, hw]
  intro e he
  simp only [freshWindow, Vector.toList_ofFn, List.mem_ofFn] at he
  obtain ⟨i, rfl⟩ := he
  split <;> simp [Position.fresh]

theorem openedRun_lawful (ps : Bytes) (x : RunNames) : (openedRun ps x).Lawful where
  cards := by rw [countState_fresh (numAt ps 8 4) (openedRun ps x) rfl]; rfl
  low := Nat.zero_le _
  allowance := min_le_right _ _
  overspoil := fun hs => by
    have none_yet : (openedRun ps x).spoiled = 0 := rfl
    omega
  live := nofun
  held := nofun

end Sys2Proof.Machine
end

section
/-! Proofs. The bounds and the books are kept by what the Run Controller, the engine and the Core do (R20, R32, R56 to R74, R91 to
R96). -/

namespace Sys2Proof.Machine

/-! ### The Run Controller -/

theorem changeRun_kept (n : Word) {f : Run → Run} {tell : Run → State → State} (hf : ∀ r, r.Lawful → (f r).Lawful)
    (hn : ∀ r, (f r).number = r.number) (ht : ∀ r t, Calm t (tell r t)) (s : State) : Kept s (s.changeRun n f tell) := by
  unfold State.changeRun
  dsimp only
  split
  · exact updateRun_kept hf hn
  · exact (updateRun_kept hf hn).trans (ht _ _).kept

theorem closeTest_kept (n : Word) (s : State) : Kept s (closeTest n s) := by
  unfold closeTest
  split
  · exact .refl s
  · exact ite_kept (fun _ => changeRun_kept n (fun _ => close_lawful) close_number (fun _ _ => offer_calm _ _ _ _) s)
      fun _ => .refl s

theorem advanceRun_kept (n : Word) (s : State) : Kept s (advanceRun n s) := by
  have advanced : Kept s (s.updateRun n Run.advance) := updateRun_kept (fun _ => advance_lawful) advance_number
  unfold advanceRun
  dsimp only
  split
  · exact advanced
  · refine ite_kept (fun _ => advanced.trans ?_) fun _ => advanced
    exact changeRun_kept n (fun _ => completed_lawful) (fun _ => rfl) (fun _ _ => offer_calm _ _ _ _) _

theorem progressTest_kept (n : Word) (s : State) : Kept s (progressTest n s) := by
  unfold progressTest
  split
  · exact .refl s
  · refine ite_kept (fun _ => ?_) fun _ => .refl s
    exact changeRun_kept n (f := fun x => { x with progress := 0 }) (fun _ h => { h with }) (fun _ => rfl)
      (fun _ _ => offer_calm _ _ _ _) s

/-- A line after a card has come back: its limit stands, its credit has not risen (R116). -/
theorem cardReturned_calm {s : State} {l : LineNo} {y : Line} (hl : y.limit = (s.line l).limit)
    (ho : y.occupied = (s.line l).occupied - 1) : Calm s (s.setLine l y) :=
  setLine_calm hl (ho ▸ Nat.sub_le _ _)

/-- A run's books change, and after notices the comparison of R52 is made: the books balance again then. -/
theorem spoilt_kept {s t : State} {n : Word} {r : Run} {f : Run → Run} (hr : s.run n = some r)
    (hf : r.Lawful → (f r).overspoilTest.Lawful) (hn : ∀ x, (f x).number = x.number) (h : Confined s t)
    (ht : t.runs.table = (s.updateRun n f).runs.table) : Kept s (t.updateRun n Run.overspoilTest) := by
  refine (h.trans (updateRun_confined n _ t)).kept fun k => ?_
  refine k.update (f := Run.overspoilTest ∘ f) (updateRun_twice hn ht) (fun x hx e hl => ?_) fun x => ?_
  · have same := k.run_eq hr hx e
    rw [same] at hl ⊢
    exact hf hl
  · rw [← hn x]; unfold Function.comp Run.overspoilTest; split <;> rfl

/-- How a spoil or a lapse ends: at the fourth attempt the low mark is advanced, and a CLOSING run is tested (R64, R67, R72). -/
theorem cardBack_kept {n : Word} {s t : State} (fourth : Prop) [Decidable fourth] (h : Kept s t) :
    Kept s (closeTest n (if fourth then advanceRun n t else t)) :=
  (ite_kept (fun _ => h.trans (advanceRun_kept n t)) fun _ => h).trans (closeTest_kept n _)

theorem ite_calm {c : Prop} [Decidable c] {s t : State} (h : Calm s t) : Calm s (if c then t else s) := by
  split
  · exact h
  · exact .refl s

theorem offerCard_calm (v : CardVariant) (n seq : Word) (l : LineNo) (last : Byte) (s : State) :
    Calm s (offerCard v n seq l last s) := offer_calm _ _ _ s

section
variable {s : State} {l : LineNo} {n seq : Word} {r : Run} {o : Nat} {p : Position} (hr : s.run n = some r)
  (hp : r.position o = some p) (ho : p.state = .out)
include hr hp ho

/-- A card DONE (R64): the books balance again at once. -/
theorem settle_done_kept : Kept s (settle l n o seq p .done s) := by
  have returned := (cardReturned_calm (y := { (s.line l).returnCard n seq with consecutive := 0 }) rfl rfl).kept
  refine (((returned.trans ?_).trans (progressTest_kept n _)).trans (advanceRun_kept n _)).trans (closeTest_kept n _)
  exact (updateRun_confined _ _ _).kept fun h =>
    h.update rfl (fun x hx e hl => finish_lawful (h.run_eq hr hx e ▸ hp) ho hl) fun _ => rfl

/-- A card spoiled or rejected: after the comparison of R52 the books balance (R64). -/
theorem spoiledCard_kept {y : Line} (hl : y.limit = (s.line l).limit) (hy : y.occupied = (s.line l).occupied - 1) :
    Kept s ((if p.attempt = 4 then
        offerCard .voided n seq l (byteOf p.attempt) ((s.setLine l y).updateRun n fun r => r.spoil o p)
      else (s.setLine l y).updateRun n fun r => r.spoil o p).updateRun n Run.overspoilTest) := by
  have told := ite_calm (c := p.attempt = 4)
    (offerCard_calm .voided n seq l (byteOf p.attempt) ((s.setLine l y).updateRun n fun r => r.spoil o p))
  have returned := (cardReturned_calm hl hy).toConfined.trans (updateRun_confined n (fun r => r.spoil o p) _)
  exact spoilt_kept hr (f := fun r => r.spoil o p) (spoil_lawful hp ho) (fun _ => rfl) (returned.trans told.toConfined) told.runs

theorem settle_kept (res : CardResult) : Kept s (settle l n o seq p res s) := by
  cases res with
  | done => exact settle_done_kept hr hp ho
  | spoiled => exact cardBack_kept _ (spoiledCard_kept hr hp ho rfl rfl)
  | rejected =>
    exact cardBack_kept _ (spoiledCard_kept (y := { (s.line l).returnCard n seq with rejects := _ }) hr hp ho rfl rfl)

theorem lapsePosition_kept : Kept s (lapsePosition l n o seq p s) := by
  unfold lapsePosition
  dsimp only
  have lapsed := offerCard_calm .lapsed n seq l (byteOf p.attempt)
    ((s.setLine l ((s.line l).returnCard n seq).countLapse).updateRun n fun r => r.lapse o p l)
  have told := (lapsed.trans (ite_calm (c := p.attempt = 4) (offerCard_calm .voided n seq l (byteOf p.attempt) _))).trans
    (lineNotices_calm s _)
  have returned := (cardReturned_calm (y := ((s.line l).returnCard n seq).countLapse) rfl rfl).toConfined.trans
    (updateRun_confined n (fun r => r.lapse o p l) _)
  exact cardBack_kept _ (spoilt_kept hr (f := fun r => r.lapse o p l) (lapse_lawful hp ho) (fun _ => rfl)
    (returned.trans told.toConfined) told.runs)

end

theorem lateOutcome_kept (l : LineNo) (n seq : Word) (res : CardResult) (s : State) : Kept s (lateOutcome l n seq res s) := by
  have counted : Kept s (s.updateRun n fun r => { r with late := bumpCounter max16 r.late }) :=
    updateRun_kept (fun _ h => { h with }) fun _ => rfl
  refine (counted.trans ?_).trans (offer_calm _ _ _ _).kept
  exact Calm.kept (setLine_calm rfl le_rfl)

theorem strayOutcome_calm (l : LineNo) (n seq : Word) (res : CardResult) (s : State) : Calm s (strayOutcome l n seq res s) := by
  refine Calm.trans ?_ (offer_calm _ _ _ _)
  exact setLine_calm rfl le_rfl

theorem takeOutcome_kept (l : LineNo) (n seq : Word) (res : CardResult) (s : State) : Kept s (takeOutcome l n seq res s) := by
  unfold takeOutcome
  split
  · exact (strayOutcome_calm l n seq res s).kept
  · next r hr =>
    split
    · exact (strayOutcome_calm l n seq res s).kept
    · next p hp =>
      exact ite_kept (fun out => settle_kept hr hp out.1 res) fun _ =>
        ite_kept (fun _ => lateOutcome_kept l n seq res s) fun _ => (strayOutcome_calm l n seq res s).kept

/-! ### Admission and withdrawal -/

theorem Position.stage_not_out (p : Position) : p.stage.state ≠ .out := nofun

/-- A record that passes R57 finds its position OPEN or SPOILED, and room in the Staging Queue (R57, R60). -/
theorem admissionReason_none {s : State} {r : Run} {seq : Word} (h : s.admissionReason r seq = none) :
    (∃ p, r.position (r.offset seq) = some p ∧ p.state ≠ .out) ∧ s.runs.staging.length < 32 := by
  unfold State.admissionReason at h
  dsimp only at h
  cases hp : r.position (r.offset seq) with
  | none => rw [hp] at h; split_ifs at h
  | some p =>
    rw [hp] at h
    dsimp only at h
    split_ifs at h with _ _ _ _ _ taken _ full
    simp only [not_or] at taken
    exact ⟨⟨p, rfl, taken.2.1⟩, not_le.mp full⟩

theorem stageRecord_kept {s : State} {n : Word} {r : Run} {seq : Word} (hr : s.run n = some r)
    (h : s.admissionReason r seq = none) (fields : List Field) : Kept s (s.stageRecord r seq fields) := by
  obtain ⟨⟨p, hp, notOut⟩, room⟩ := admissionReason_none h
  have confined := updateRun_confined r.number (fun x => x.mapPosition (x.offset seq) Position.stage) s
  have number := (run_mem hr).2
  constructor
  · intro b
    exact { confined.bounded b with
      staging := by
        show (s.runs.staging ++ [_]).length ≤ 32
        simp only [List.length_append, List.length_singleton]; omega }
  · intro k
    refine k.update (f := fun x => x.mapPosition (x.offset seq) Position.stage) rfl (fun x hx e hl => ?_) fun x => ?_
    · rw [k.run_eq hr hx (e.trans number)] at hl ⊢
      unfold Run.mapPosition
      rw [hp]
      exact setPosition_lawful hp notOut p.stage_not_out hl
    · rw [mapPosition_only]

theorem offerRefusal_calm (n seq : Word) (reason : RefusalReason) (s : State) : Calm s (offerRefusal n seq reason s) :=
  offer_calm _ _ _ s

/-- One frame more in the onward queue, which had room for it (R128, R129). -/
theorem passOnward_kept {s : State} (room : s.link.onwardQueue.length < 8) (frame : Bytes) : Kept s (s.passOnward frame) where
  bounds := fun b => { b with
    onward := by
      show (s.link.onwardQueue ++ [frame]).length ≤ 8
      simp only [List.length_append, List.length_singleton]; omega }
  books := fun k => k.of_table rfl

theorem admitRecord_kept {s : State} (room : s.link.onwardQueue.length < 8) (frame : Bytes) : Kept s (admitRecord frame s) := by
  have refusal := fun n seq reason => (offerRefusal_calm n seq reason s).kept
  unfold admitRecord
  dsimp only
  refine ite_kept (fun _ => refusal _ _ _) fun _ => ?_
  split
  · exact ite_kept (fun _ => refusal _ _ _) fun _ => passOnward_kept room frame
  · next r hr =>
    split
    · exact refusal _ _ _
    · split
      · next admitted => exact stageRecord_kept hr admitted _
      · refine (refusal _ _ _).trans (updateRun_kept (fun _ h => ?_) fun _ => rfl)
        exact { h with }
      · exact refusal _ _ _

theorem takeRecordFrame_kept {s : State} (room : s.link.onwardQueue.length < 8) (frame : Bytes) :
    Kept s (takeRecordFrame frame s) :=
  ite_kept (fun _ => admitRecord_kept room frame) fun _ =>
    (startIdle_calm s).kept.trans (admitRecord_kept (by simpa using room) frame)

theorem withdrawRun_kept (n : Word) (s : State) : Kept s (withdrawRun n s) := by
  unfold withdrawRun
  dsimp only
  refine Kept.trans (t := { s with runs := { s.runs with staging := s.runs.staging.filter fun x => !(x.run == n) } }) ?_
    (foldl_kept (fun t x => ?_) _ _)
  · exact Confined.kept { Confined.refl s with staging := List.length_filter_le _ _ } fun k => k.of_table rfl
  · refine Kept.trans (updateRun_kept (fun r h => mapPosition_lawful unstage_out h) fun r => ?_) (offerRefusal_calm _ _ _ _).kept
    rw [mapPosition_only]

/-! ### Key uses -/

theorem reportUnusable_kept (n : SlotNo) (s : State) : Kept s (s.reportUnusable n) := by
  have confined : Confined s (s.reportUnusable n) :=
    { Confined.refl s with table := by simp [State.reportUnusable] }
  refine confined.kept fun k => k.map rfl (fun r _ h => ?_) fun r _ => ?_
  · split
    · exact addKey_lawful h
    · exact h
  · split <;> rfl

theorem countUse_kept (n : SlotNo) (s : State) : Kept s (s.countUse n) := by
  unfold State.countUse
  dsimp only
  refine ite_kept (fun _ => ?_) fun _ => (Calm.of_tables (by rfl)).kept
  exact ((Calm.of_tables (t := s.setSlot n _) (by rfl)).kept.trans (reportUnusable_kept n _)).trans (lineNotices_calm s _).kept

theorem requestUse_kept (n : SlotNo) (u : UseKind) (s : State) : Kept s (requestUse n u s).2 := by
  unfold requestUse
  dsimp only
  split_ifs
  · exact .refl s
  · exact .refl s
  · exact .refl s
  · exact (offer_calm _ _ _ s).kept
  · exact countUse_kept n s

/-! ### The engine -/

/-- A request of the engine leaves the unit as it was, or as the store's answer leaves it (R92 step 4). -/
theorem requestStep_state (w : Work) (slot : Option SlotNo) (u : UseKind) (next : Block → Waiting × CipherStep) (s : State) :
    (requestStep w slot u next s).2 = s ∨ ∃ n, (requestStep w slot u next s).2 = (requestUse n u s).2 := by
  cases slot with
  | none => exact .inl rfl
  | some n =>
    refine .inr ⟨n, ?_⟩
    unfold requestStep
    dsimp only
    split <;> simp_all

/-- A walk does nothing to the unit but ask for one use of a key at most (R92). -/
theorem walk_state (xs : List ActionInst) (w : Work) (s : State) :
    (walk xs w s).2 = s ∨ ∃ n u, (walk xs w s).2 = (requestUse n u s).2 := by
  have asked : ∀ (w : Work) slot u next, (requestStep w slot u next s).2 = s ∨
      ∃ n u', (requestStep w slot u next s).2 = (requestUse n u' s).2 := fun w slot u next =>
    (requestStep_state w slot u next s).imp id fun ⟨n, e⟩ => ⟨n, u, e⟩
  induction xs generalizing w with
  | nil => exact .inl rfl
  | cons a rest ih =>
    unfold walk
    dsimp only
    cases a.kind with
    | stamp => dsimp only; split_ifs; exacts [.inl rfl, ih _]
    | outTag => dsimp only; split_ifs; exacts [.inl rfl, asked _ _ _ _]
    | copy =>
      dsimp only
      split
      · split_ifs; exacts [ih _, .inl rfl]
      · split_ifs; exacts [.inl rfl, ih _]
    | derive =>
      dsimp only
      split
      · split_ifs; exacts [ih _, .inl rfl]
      · split_ifs; exacts [.inl rfl, .inl rfl, asked _ _ _ _]
    | rewrap =>
      dsimp only
      split
      · split_ifs; exacts [ih _, .inl rfl]
      · split_ifs; exacts [.inl rfl, .inl rfl, asked _ _ _ _]

theorem resume_state (v : Block) (w : Work) (s : State) :
    (resume v w s).2 = s ∨ ∃ n u, (resume v w s).2 = (requestUse n u s).2 := by
  have asked : ∀ (w : Work) slot u next, (requestStep w slot u next s).2 = s ∨
      ∃ n u', (requestStep w slot u next s).2 = (requestUse n u' s).2 := fun w slot u next =>
    (requestStep_state w slot u next s).imp id fun ⟨n, e⟩ => ⟨n, u, e⟩
  have finished : ∀ value, (finishInstance value w s).2 = s ∨ ∃ n u, (finishInstance value w s).2 = (requestUse n u s).2 := by
    intro value
    unfold finishInstance
    split <;> exact walk_state _ _ s
  unfold resume
  split
  · exact asked _ _ _ _
  · exact .inl rfl
  · exact finished _
  · exact asked _ _ _ _
  · exact finished _
  · exact asked _ _ _ _
  · split_ifs
    exacts [finished _, .inl rfl]

theorem kept_of_request {s t : State} (h : t = s ∨ ∃ n u, t = (requestUse n u s).2) : Kept s t := by
  obtain rfl | ⟨n, u, rfl⟩ := h
  · exact .refl t
  · exact requestUse_kept n u s

/-- The engine becomes IDLE, and the reserved line's record changes without a new reservation (R93, R95). -/
theorem idleLine_calm {s : State} {l : LineNo} {x : Line} (hl : x.limit = (s.line l).limit)
    (ho : x.occupied ≤ (s.line l).occupied) : Calm s ({ s with engine := none }.setLine l x) :=
  (Calm.of_tables (t := { s with engine := none }) (by rfl)).trans (setLine_calm hl ho)

theorem completeRecord_kept (w : Work) (s : State) : Kept s (completeRecord w s) := by
  refine Kept.trans ?_ (closeTest_kept _ _)
  refine Kept.trans ?_ (updateRun_kept (fun r h => goOut_lawful _ _ _ h) fun r => ?_)
  · exact Calm.kept (idleLine_calm rfl le_rfl)
  unfold Run.goOut
  split
  · rfl
  · split <;> rfl

theorem failRecord_kept (w : Work) (reason : FailReason) (s : State) : Kept s (failRecord w reason s) := by
  refine Kept.trans ?_ (closeTest_kept _ _)
  refine Kept.trans ?_ (offer_calm _ _ _ _).kept
  refine Kept.trans ?_ (updateRun_kept (fun r h => mapPosition_lawful unstage_out h) fun r => ?_)
  · exact Calm.kept (idleLine_calm rfl (Nat.sub_le _ _))
  rw [mapPosition_only]

theorem endWalk_kept (e : WalkEnd × State) : Kept e.2 (endWalk e) := by
  unfold endWalk
  split
  · exact (Calm.of_tables (by rfl)).kept
  · exact failRecord_kept _ _ _
  · exact completeRecord_kept _ _

theorem abortRecord_kept (s : State) : Kept s (abortRecord s) := by
  unfold abortRecord
  split
  · exact .refl s
  · exact (Calm.of_tables (t := s.discardEngineStep) (by rfl)).kept.trans (failRecord_kept _ _ _)

/-- The line of a take has credit left (R114). -/
theorem nextTake_credit {s : State} {x : StagedRecord} {r : Run} {l : LineNo} {key : SlotNo}
    (h : s.nextTake = some (x, r, l, key)) : (s.line l).occupied < (s.line l).limit := by
  have better : ∀ (xs : List LineNo) (a : LineNo), xs.foldl s.betterLine a ∈ a :: xs := by
    intro xs
    induction xs with
    | nil => intro a; simp
    | cons b xs ih =>
      intro a
      have step := ih (s.betterLine a b)
      have either : s.betterLine a b = b ∨ s.betterLine a b = a := by unfold State.betterLine; split <;> simp
      simp only [List.foldl_cons, List.mem_cons] at step ⊢
      obtain e | e := either <;> simp only [e] at step ⊢ <;> tauto
  have chosen : ∀ g, s.chooseLine g = some l → s.dispatchable l = true := by
    intro g hg
    unfold State.chooseLine at hg
    split at hg
    · cases hg
    · next a rest ho =>
      have mem := better rest a
      rw [Option.some.inj hg, ← ho] at mem
      simp only [State.openLines, List.mem_filter, Bool.and_eq_true] at mem
      exact mem.2.2
  unfold State.nextTake at h
  split at h
  · cases h
  · split at h
    · cases h
    · split at h
      · cases h
      · next l' hl' =>
        rw [Option.map_eq_some_iff] at h
        obtain ⟨k, -, e⟩ := h
        simp only [Prod.mk.injEq] at e
        obtain ⟨-, -, rfl, -⟩ := e
        have := chosen _ hl'
        simp only [State.dispatchable, Bool.and_eq_true, decide_eq_true_eq] at this
        exact this.2

theorem takeRecord_kept {s : State} {x : StagedRecord} {r : Run} {l : LineNo} {key : SlotNo}
    (h : s.nextTake = some (x, r, l, key)) : Kept s (takeRecord x r l key s) := by
  have credit := nextTake_credit h
  have reserved : Kept s (s.setLine l { s.line l with occupied := (s.line l).occupied + 1 }) := by
    refine ⟨fun b => ?_, fun k => k.of_table rfl⟩
    exact { b with
      limits := fun m => by
        rw [setLine_line]; split
        · exact b.limits l
        · exact b.limits m
      credit := fun m => by
        rw [setLine_line]; split
        · exact credit.trans_le (b.limits l).2
        · exact b.credit m }
  have unqueued : ∀ t : State, Kept t { t with runs := { t.runs with staging := t.runs.staging.erase x } } := fun t =>
    Confined.kept { Confined.refl t with staging := List.length_erase_le } fun k => k.of_table rfl
  exact ((reserved.trans (unqueued _)).trans (kept_of_request (walk_state _ _ _))).trans (endWalk_kept _)

theorem engineTake_kept (s : State) : Kept s (engineTake s) := by
  unfold engineTake
  generalize s.runs.staging.length = n
  induction n generalizing s with
  | zero => exact .refl s
  | succ n ih =>
    unfold takeLoop
    refine ite_kept (fun _ => .refl s) fun _ => ?_
    split
    · exact .refl s
    · next h => exact (takeRecord_kept h).trans (ih _)

/-! ### The sharing of the Core -/

theorem beginStep_kept (s : State) : Kept s (beginStep s) := by
  unfold beginStep
  refine ite_kept (fun _ => .refl s) fun _ => ?_
  split
  · dsimp only
    split
    · exact (Calm.of_tables (by rfl)).kept
    · exact ite_kept (fun _ => (Calm.of_tables (by rfl)).kept.trans (countUse_kept _ _)) fun _ => (Calm.of_tables (by rfl)).kept
  · split
    · exact .refl s
    · exact (Calm.of_tables (by rfl)).kept

theorem settleCore_kept (s : State) : Kept s (settleCore s) :=
  ((Calm.of_tables (t := presentSteps s) (by rfl)).kept.trans (beginStep_kept _)).trans (Calm.of_tables (by rfl)).kept

theorem settleUnit_kept (s : State) : Kept s (settleUnit s) := (engineTake_kept s).trans (settleCore_kept _)

end Sys2Proof.Machine
end

section
/-! Proofs. The bounds and the books are kept by the Key Store's own operations, by zeroisation and trips (R14, R23 to R28, R156 to
R163), and by each order's own rule (7.8). -/

namespace Sys2Proof.Machine

/-! ### The Key Store -/

theorem setCustody_calm (c : Custody) (s : State) : Calm s (s.setCustody c) := .of_tables (by rfl)

theorem lapseAssembly_calm (n : SlotNo) (s : State) : Calm s (lapseAssembly n s) :=
  (Calm.of_tables (t := s.emptySlot n) (by rfl)).trans (offer_calm _ _ _ _)

theorem lapseAssemblies_calm (s : State) : Calm s (lapseAssemblies s) :=
  foldl_calm (fun t n => ite_calm (lapseAssembly_calm n t)) _ s

theorem finishVerify_calm (cause : VerifyCause) (damaged : Nat) (s : State) : Calm s (finishVerify cause damaged s) := by
  unfold finishVerify
  dsimp only
  refine Calm.trans ?_ (offer_calm _ _ _ _)
  cases cause with
  | restore => exact .of_tables (by rfl)
  | wake => exact Calm.trans (.of_tables (by rfl)) (startIdle_calm _)

theorem visitFrom_calm (cause : VerifyCause) (damaged start : Nat) (s : State) : Calm s (visitFrom cause damaged start s) := by
  unfold visitFrom
  split
  · exact finishVerify_calm cause damaged s
  · exact .of_tables (by rfl)

theorem releaseVerify_calm (s : State) : Calm s (releaseVerify s) :=
  ite_calm (Calm.trans (.of_tables (by rfl)) (visitFrom_calm _ _ _ _))

theorem damageSlot_kept (n : SlotNo) (s : State) : Kept s (damageSlot n s) := by
  unfold damageSlot
  dsimp only
  refine Kept.trans ?_ (lineNotices_calm s _).kept
  exact (Calm.trans (.of_tables (by rfl)) (offer_calm _ _ _ _)).kept.trans (reportUnusable_kept n _)

theorem verifySlot_kept (v : Verify) (x : Block) (s : State) : Kept s (verifySlot v x s) :=
  ite_kept (fun _ => (visitFrom_calm _ _ _ s).kept) fun _ => (damageSlot_kept _ s).trans (visitFrom_calm _ _ _ _).kept

theorem enterDormant_calm (s : State) : Calm s (enterDormant s) := by
  have lapsed := (Calm.of_tables (s := s) (t := (s.setCustody .dormant).discardCopies) rfl).trans (lapseAssemblies_calm _)
  unfold enterDormant offerKey
  exact lapsed.trans (offer_calm _ _ _ _)

theorem activate_calm (n : SlotNo) (k : Slot) (s : State) : Calm s (activate n k s) :=
  ((Calm.of_tables (t := s.setSlot n k) (by rfl)).trans (offer_calm _ _ _ _)).trans (lineNotices_calm s _)

theorem endLoad_calm (l : Load) (v : Block) (s : State) : Calm s (endLoad l v s).2 := by
  unfold endLoad
  split
  · exact .refl s
  · split
    · exact .of_tables (by rfl)
    · split
      · exact activate_calm _ _ s
      · exact .of_tables (by rfl)
    · split
      · exact activate_calm _ _ s
      · exact .refl s
    · exact .refl s

theorem lateLapse_calm (l : Load) (s : State) : Calm s (lateLapse l s) := by
  unfold lateLapse
  split
  · exact ite_calm (lapseAssembly_calm _ s)
  · exact .refl s

/-! ### Zeroisation and trips -/

theorem zeroiseOrder_calm (s : State) : Calm s (zeroiseOrder s) := by
  have dropped : Calm s s.dropOrderStep := by
    unfold State.dropOrderStep
    split <;> exact .of_tables (by rfl)
  rw [zeroiseOrder_eq]
  exact (dropped.trans (emptyGate_calm _)).trans (.of_tables (by rfl))

theorem markBattery_calm (s : State) : Calm s (markBattery s) := ite_calm (.of_tables (by rfl))

theorem reportZeroised_kept (was s : State) : Kept s (reportZeroised was s) :=
  foldl_kept (fun t n => ite_kept (fun _ => reportUnusable_kept n t) fun _ => .refl t) _ s

theorem zeroise_kept (s : State) : Kept s (zeroise s) := by
  unfold zeroise
  dsimp only
  refine Kept.trans ?_ (abortRecord_kept _)
  refine Kept.trans ?_ (lineNotices_calm s _).kept
  refine Kept.trans ?_ (reportZeroised_kept s _)
  exact (((zeroiseOrder_calm s).trans (.of_tables (by rfl))).trans (markBattery_calm _)).kept

/-- One entry more in the tamper record, when fewer than 8 stand there (R163). -/
theorem enterTamper_kept (source : TamperSource) (action : TamperAction) (s : State) : Kept s (s.enterTamper source action) where
  bounds := fun b => { b with
    record := by
      unfold State.enterTamper
      dsimp only
      split
      · simp only [List.length_append, List.length_singleton]; omega
      · exact b.record }
  books := fun k => k.of_table rfl

theorem countBatteryTrip_calm (s : State) : Calm s s.countBatteryTrip := ite_calm (.of_tables (by rfl))

theorem applyAction_kept (i : SensorNo) (s : State) : Kept s (applyAction i s) := by
  unfold applyAction
  dsimp only
  split
  · exact ite_kept (fun _ => (Calm.of_tables (by rfl)).kept) fun _ => (Calm.of_tables (by rfl)).kept.trans (zeroise_kept _)
  · exact (Calm.of_tables (by rfl)).kept.trans (abortRecord_kept _)

theorem trip_kept (i : SensorNo) (s : State) : Kept s (trip i s) := by
  unfold trip
  dsimp only
  refine Kept.trans ?_ (applyAction_kept i _)
  refine Kept.trans ?_ (offer_calm _ _ _ _).kept
  exact (enterTamper_kept _ _ s).trans ((countBatteryTrip_calm _).trans (emptyGate_calm _)).kept

theorem considerSensor_kept (i : SensorNo) (s : State) : Kept s (considerSensor i s) :=
  ite_kept (fun _ => ite_kept (fun _ => trip_kept i s) fun _ => (Calm.of_tables (by rfl)).kept) fun _ => .refl s

theorem closeWindow_kept (s : State) : Kept s (closeWindow s) := (Calm.of_tables (by rfl)).kept.trans (considerSensor_kept 0 _)

theorem releaseLatched_calm (s : State) : Calm s (releaseLatched s) :=
  foldl_calm (fun _ _ => ite_calm (.of_tables (by rfl))) _ s

theorem reconfigured_kept (i : SensorNo) (s : State) : Kept s (reconfigured i s) := by
  unfold reconfigured
  split
  · exact considerSensor_kept i s
  · exact (Calm.of_tables (by rfl)).kept.trans (considerSensor_kept i _)
  · exact ite_kept (fun _ => .refl s) fun _ => (Calm.of_tables (by rfl)).kept
  · exact .refl s

theorem inputReturned_calm (i : SensorNo) (s : State) : Calm s (inputReturned i s) := by
  unfold inputReturned
  split
  · exact .of_tables (by rfl)
  · exact .of_tables (by rfl)
  · exact .refl s
  · exact .refl s

/-! ### The orders' own rules -/

/-- An order whose checks refuse it changes nothing; one that they pass does what its rule does. -/
theorem checked_kept {α : Type} {e : Except OrderResult α} {s : State} {k : α → Taken} (h : ∀ a, e = .ok a → Kept s (k a).left) :
    Kept s (checked e s k).left := by
  unfold checked
  split
  · exact .refl s
  · exact h _ rfl

theorem checked_calm {α : Type} {e : Except OrderResult α} {s : State} {k : α → Taken} (h : ∀ a, Calm s (k a).left) :
    Kept s (checked e s k).left := checked_kept fun a _ => (h a).kept

theorem need_ok {b : Bool} {r : OrderResult} (h : need b r = .ok ()) : b = true := by
  cases b
  · cases h
  · rfl

/-- Two checks in a row pass when each does. -/
theorem bind_ok {α β : Type} {e : Except OrderResult α} {f : α → Except OrderResult β} {b : β} (h : (e >>= f) = .ok b) :
    ∃ a, e = .ok a ∧ f a = .ok b := by
  cases e with
  | error r => cases h
  | ok a => exact ⟨a, rfl, h⟩

theorem need_bind_ok {b : Bool} {r : OrderResult} {β : Type} {f : Unit → Except OrderResult β} {x : β}
    (h : (need b r >>= f) = .ok x) : b = true ∧ f () = .ok x := by
  obtain ⟨_, hb, hf⟩ := bind_ok h
  exact ⟨need_ok hb, hf⟩

theorem knownRun_ok {s : State} {n : Word} {r : Run} (h : s.knownRun n = .ok r) : s.run n = some r := by
  unfold State.knownRun at h
  split at h
  · cases h
  · next e => cases h; exact e

theorem Kept.taking {s t : State} (h : Kept s t) : Kept s (engineTake t) := h.trans (engineTake_kept t)

theorem Kept.telling {s t : State} (was : State) (h : Kept s t) : Kept s (lineNotices was t) :=
  h.trans (lineNotices_calm was t).kept

/-- A limit that an order sets lies between 1 and 8 (R104). -/
theorem creditOf_ok {b : Byte} {c : Nat} (h : creditOf b = .ok c) : 1 ≤ c ∧ c ≤ 8 := by
  obtain ⟨nonzero, e⟩ := need_bind_ok h
  cases e
  simp only [decide_eq_true_eq] at nonzero
  omega

/-- Lines change with their credit as it was, and with limits from 1 to 8. -/
theorem lines_kept {s t : State} (hl : Bounded s → ∀ l, 1 ≤ (t.line l).limit ∧ (t.line l).limit ≤ 8)
    (ho : ∀ l, (t.line l).occupied = (s.line l).occupied) (h : Calm s { t with dispatch := s.dispatch }) : Kept s t where
  bounds := fun b => { h.toConfined.bounded b with
    limits := hl b
    credit := fun l => by rw [ho]; exact b.credit l }
  books := fun k => (h.kept.books k).of_table rfl

theorem mapLines_line (s : State) (f : LineNo → Line → Line) (l : LineNo) : (s.mapLines f).line l = f l (s.line l) := by
  simp [State.mapLines, State.line]

theorem setGroupKey_kept (g : GroupNo) (key : Option SlotNo) (s : State) : Kept s (s.setGroupKey g key) := by
  refine lines_kept (fun b l => ?_) (fun l => ?_) (.of_tables (by rfl))
  all_goals unfold State.setGroupKey; rw [mapLines_line]
  · split <;> exact b.limits l
  · split <;> rfl

theorem setGroupCredit_kept (g : GroupNo) {credit : Nat} (hc : 1 ≤ credit ∧ credit ≤ 8) (s : State) :
    Kept s (s.setGroupCredit g credit) := by
  refine lines_kept (fun b l => ?_) (fun l => ?_) (.of_tables (by rfl))
  all_goals unfold State.setGroupCredit; rw [mapLines_line]
  · split
    · exact hc
    · exact b.limits l
  · split <;> rfl

theorem clearAllLapses_kept (s : State) : Kept s ((s.mapLines fun _ x => x.clearLapses).setProduction true) := by
  refine lines_kept (fun b l => ?_) (fun l => ?_) (.of_tables (by rfl))
  · show 1 ≤ ((s.mapLines fun _ x => x.clearLapses).line l).limit ∧ ((s.mapLines fun _ x => x.clearLapses).line l).limit ≤ 8
    rw [mapLines_line]; exact b.limits l
  · show ((s.mapLines fun _ x => x.clearLapses).line l).occupied = _
    rw [mapLines_line]; rfl

theorem applySetting_kept {x : LineSetting} (hx : 1 ≤ x.credit ∧ x.credit ≤ 8) (s : State) : Kept s (applySetting x s) := by
  have line : ∀ l, (applySetting x s).line l = (s.setLine x.line { s.line x.line with keySlot := x.key, limit := x.credit }).line l :=
    fun _ => rfl
  refine lines_kept (fun b l => ?_) (fun l => ?_) (.of_tables (by rfl))
  all_goals rw [line, setLine_line]
  · split
    · exact hx
    · exact b.limits l
  · split
    · next e => rw [← e]
    · rfl

theorem checkSetLine_ok {ps : Bytes} {s : State} {x : LineSetting} (h : checkSetLine ps s = .ok x) :
    1 ≤ x.credit ∧ x.credit ≤ 8 := by
  obtain ⟨l, -, h⟩ := bind_ok h
  obtain ⟨key, -, h⟩ := bind_ok h
  obtain ⟨credit, hc, h⟩ := bind_ok h
  obtain ⟨groups, -, h⟩ := bind_ok h
  cases h
  exact creditOf_ok hc

theorem setLine_order_kept (a : OrderArgs) (s : State) : Kept s (takeSetLine a s).left :=
  checked_kept fun _ h => ((applySetting_kept (checkSetLine_ok h) s).telling s).taking

theorem setGroupCredit_order_kept (a : OrderArgs) (s : State) : Kept s (takeSetGroupCredit a s).left := by
  refine checked_kept fun x h => ?_
  obtain ⟨g, -, h⟩ := bind_ok h
  obtain ⟨credit, hc, h⟩ := bind_ok h
  cases h
  exact (setGroupCredit_kept g (creditOf_ok hc) s).taking

/-- A grant joins the gate, the older of two dropped (R145). -/
theorem appendGrant_kept (g : Grant) (s : State) : Kept s (s.appendGrant g) where
  bounds := fun b => { b with
    gate := by
      have := b.gate
      show ((if 2 ≤ s.order.gate.grants.length then s.order.gate.grants.tail else s.order.gate.grants) ++ [g]).length ≤ 2
      split <;> simp only [List.length_append, List.length_tail, List.length_singleton] <;> omega }
  books := fun k => k.of_table rfl

/-- A run of a new number joins a table that has room (R43, R47). -/
theorem addRun_kept {s : State} {r : Run} (hr : s.run r.number = none) (room : s.runs.table.length < 16) (lawful : r.Lawful) :
    Kept s (s.addRun r) where
  bounds := fun b => { b with
    table := by
      show (s.runs.table ++ [r]).length ≤ 16
      simp only [List.length_append, List.length_singleton]; omega }
  books := fun k => {
    unique := by
      show ((s.runs.table ++ [r]).map Run.number).Nodup
      rw [List.map_append, List.nodup_append]
      refine ⟨k.unique, by simp, ?_⟩
      rintro _ hx _ hy rfl
      obtain ⟨x, hx, e⟩ := List.mem_map.mp hx
      have := List.find?_eq_none.mp hr x hx
      simp_all
    lawful := by
      intro x hx
      obtain hx | hx := List.mem_append.mp (show x ∈ s.runs.table ++ [r] from hx)
      · exact k.lawful x hx
      · rw [List.mem_singleton.mp hx]; exact lawful }

theorem openRun_kept (a : OrderArgs) (s : State) : Kept s (takeOpenRun a s).left := by
  refine checked_kept fun x h => ?_
  obtain ⟨unknown, h⟩ := need_bind_ok h
  obtain ⟨room, -⟩ := need_bind_ok h
  exact addRun_kept (Option.isNone_iff_eq_none.mp unknown) (of_decide_eq_true room) (openedRun_lawful _ _)

theorem releaseRun_kept (a : OrderArgs) (s : State) : Kept s (takeReleaseRun a s).left := by
  refine checked_kept fun r _ => Kept.taking (updateRun_kept (fun _ => release_lawful _) fun r => ?_)
  unfold Run.release
  split <;> rfl

theorem addAllowance_kept (a : OrderArgs) (s : State) : Kept s (takeAddAllowance a s).left := by
  refine checked_kept fun r _ => Kept.taking (updateRun_kept (fun _ => raiseAllowance_lawful _) fun r => ?_)
  unfold Run.raiseAllowance
  dsimp only
  split <;> rfl

theorem closeRun_kept (a : OrderArgs) (s : State) : Kept s (takeCloseRun a s).left := by
  refine checked_kept fun r _ => ?_
  split
  · exact .refl s
  · refine Kept.trans (Kept.trans ?_ (withdrawRun_kept _ _)) (closeTest_kept _ _)
    exact updateRun_kept (f := fun x => { x with state := .closing }) (fun _ => closing_lawful) fun _ => rfl

/-- A position that WRITE OFF CARD may void (R73). -/
theorem checkWriteOff_ok {ps : Bytes} {s : State} {r : Run} {p : Position} (h : checkWriteOff ps s = .ok (r, p)) :
    s.run (wordAt ps 0) = some r ∧ r.position (r.offset (wordAt ps 4)) = some p ∧ p.state ≠ .out := by
  obtain ⟨x, hx, h⟩ := bind_ok h
  dsimp only at h
  obtain ⟨-, h⟩ := need_bind_ok h
  obtain ⟨-, h⟩ := need_bind_ok h
  obtain ⟨-, h⟩ := need_bind_ok h
  split at h
  · cases h
  · next q hq =>
    obtain ⟨-, h⟩ := need_bind_ok h
    obtain ⟨idle, h⟩ := need_bind_ok h
    cases h
    simp only [Bool.and_eq_true, decide_eq_true_eq] at idle
    exact ⟨knownRun_ok hx, hq, idle.2⟩

theorem writeOff_kept (a : OrderArgs) (s : State) : Kept s (takeWriteOff a s).left := by
  refine checked_kept fun x h => ?_
  obtain ⟨hr, hp, notOut⟩ := checkWriteOff_ok h
  refine Kept.trans ((updateRun_confined _ _ s).kept fun k => ?_) (advanceRun_kept _ _)
  refine k.update rfl (fun y hy e hl => ?_) fun _ => rfl
  rw [k.run_eq hr hy e] at hl ⊢
  exact { setPosition_lawful (q := { x.2 with state := .voided }) hp notOut nofun hl with }

theorem deleteRun_kept (a : OrderArgs) (s : State) : Kept s (takeDeleteRun a s).left := by
  refine checked_kept fun _ _ => Confined.kept ?_ fun k => ?_
  · exact { Confined.refl s with table := List.length_filter_le _ _ }
  · have sub : (s.runs.table.filter fun r => !(r.number == wordAt a.params 0)).Sublist s.runs.table := List.filter_sublist
    exact ⟨k.unique.sublist (sub.map Run.number), fun r hr => k.lawful r (sub.subset hr)⟩

theorem zeroise_order_kept (a : OrderArgs) (s : State) : Kept s (takeZeroise a s).left :=
  ((enterTamper_kept _ _ s).trans (offer_calm _ _ _ _).kept).trans (zeroise_kept _)

theorem loadComponent_kept (a : OrderArgs) (s : State) : Kept s (takeLoadComponent a s).left := by
  refine checked_calm fun p => ?_
  split
  · exact offer_calm _ _ _ s
  · split
    · exact .refl s
    · exact .refl s

theorem loadWrapped_kept (a : OrderArgs) (s : State) : Kept s (takeLoadWrapped a s).left := by
  refine checked_calm fun p => ?_
  split
  · exact offer_calm _ _ _ s
  · exact .refl s

theorem ackTamper_kept (contact : Bool) (a : OrderArgs) (s : State) : Kept s (takeAckTamper contact a s).left := by
  have cleared : Calm s (clearRecord s) :=
    { Calm.of_tables (s := s) (t := { clearRecord s with tamper := s.tamper }) rfl with record := Nat.zero_le _ }
  refine checked_calm fun _ => ?_
  split
  · dsimp only [Taken.left]
    exact (cleared.trans (setCustody_calm .factory _)).trans (releaseLatched_calm _)
  · exact cleared

theorem readLine_kept (a : OrderArgs) (s : State) : Kept s (takeReadLine a s).left := by
  refine checked_calm fun x => ?_
  exact setLine_calm (by unfold Line.cleared; split <;> rfl) (by unfold Line.cleared; split <;> exact le_rfl)

theorem setIdleLimit_calm (n : Nat) (s : State) : Calm s (s.setIdleLimit n) := by
  unfold State.setIdleLimit
  dsimp only
  split
  · exact .of_tables (by rfl)
  · exact Calm.trans (.of_tables (by rfl)) (startIdle_calm _)

theorem openWindow_calm (ms : Nat) (s : State) : Calm s (openWindow ms s) := by
  unfold openWindow
  dsimp only
  split <;> exact .of_tables (by rfl)

/-- Every order's own rule keeps the bounds and the books. -/
theorem orderRule_kept {i : Instr} {rule : OrderRule} (h : orderRule i = some rule) (a : OrderArgs) (s : State) :
    Kept s (rule.take a s).left := by
  cases i <;> cases h
  case status => exact checked_calm fun c => ite_calm (.of_tables (by rfl))
  case grant => exact checked_kept fun _ _ => appendGrant_kept _ s
  case loadComponent => exact loadComponent_kept a s
  case loadWrappedKey => exact loadWrapped_kept a s
  case commission =>
    exact checked_kept fun _ _ => Kept.taking ((setCustody_calm _ s).trans (startIdle_calm _)).kept
  case retireSlot =>
    exact checked_kept fun n _ => Kept.telling s ((Calm.of_tables (by rfl)).kept.trans (reportUnusable_kept n _))
  case eraseSlot =>
    exact checked_kept fun n _ => ((Calm.of_tables (by rfl)).kept.trans (reportUnusable_kept n _)).trans (Calm.of_tables (by rfl)).kept
  case setCeiling => exact checked_kept fun _ _ => Kept.taking (Kept.telling s (Calm.of_tables (by rfl)).kept)
  case wake => exact checked_calm fun _ => visitFrom_calm _ _ _ s
  case zeroise => exact zeroise_order_kept a s
  case ackTamper => exact ackTamper_kept _ a s
  case openRun => exact openRun_kept a s
  case releaseRun => exact releaseRun_kept a s
  case holdRun => exact checked_kept fun _ _ => updateRun_kept (fun _ => hold_lawful) fun _ => rfl
  case addAllowance => exact addAllowance_kept a s
  case closeRun => exact closeRun_kept a s
  case writeOffCard => exact writeOff_kept a s
  case deleteRun => exact deleteRun_kept a s
  case setLine => exact setLine_order_kept a s
  case setGroupMembers => exact checked_kept fun _ _ => Kept.taking (Calm.of_tables (by rfl)).kept
  case setGroupKey => exact checked_kept fun x _ => ((setGroupKey_kept x.1 x.2 s).telling s).taking
  case setGroupCredit => exact setGroupCredit_order_kept a s
  case barLine => exact checked_calm fun _ => (setLine_calm (by rfl) (by rfl)).trans (lineNotices_calm s _)
  case unbarLine => exact checked_kept fun _ _ => Kept.taking (Kept.telling s (Calm.kept (setLine_calm (by rfl) (by rfl))))
  case clearLine => exact checked_kept fun _ _ => Kept.taking (Kept.telling s (Calm.kept (setLine_calm (by rfl) (by rfl))))
  case productionOn => exact ((clearAllLapses_kept s).telling s).taking
  case productionOff => exact (Calm.of_tables (by rfl)).kept
  case readLine => exact readLine_kept a s
  case readLinkErrors => exact (Calm.of_tables (by rfl)).kept
  case setSensor => exact checked_kept fun x _ => Kept.taking ((Calm.of_tables (by rfl)).kept.trans (reconfigured_kept x.1 _))
  case resume =>
    refine checked_kept fun _ _ => ?_
    dsimp only [Taken.left]
    exact Kept.taking (releaseLatched_calm s).kept
  case openCabinet => exact checked_calm fun _ => openWindow_calm _ s
  case closeCabinet =>
    show Kept s (if _ then _ else _)
    exact ite_kept (fun _ => closeWindow_kept s) fun _ => .refl s
  case readTamperRecord => exact .refl s
  case setTime => exact (Calm.of_tables (by rfl)).kept
  case setAlarmMask => exact (Calm.of_tables (by rfl)).kept
  case setIdleLimit => exact (setIdleLimit_calm _ s).kept
  case unknownOrderCode => exact .refl s
  all_goals exact checked_calm fun _ => (.of_tables (by rfl))

end Sys2Proof.Machine
end

section
/-! Proofs. Every command, and the tick, keeps the tables and queues within their bounds (R43, R60, R100, R129, R130, R144, R163, R174)
and the books of the runs lawful (R45, R52, R53, R56, R62). -/

namespace Sys2Proof.Machine

/-! ### The decision of an order -/

theorem buildAnswer_calm (h : OrderInHand) (r : OrderResult) (v : Bytes) (z : Bool) (s : State) : Calm s (buildAnswer h r v z s) := by
  unfold buildAnswer
  dsimp only
  split <;> exact .of_tables (by rfl)

theorem afterTake_calm (h : OrderInHand) (x : Taken) : Calm x.left (afterTake h x) := by
  cases x with
  | answered r v s => exact buildAnswer_calm h r v false s
  | held l s => exact .of_tables (by rfl)

theorem dealWithGate_calm (c : OrderClass) (x : Taken) : Calm x.left (dealWithGate c x).left := by
  cases x with
  | answered r v s =>
    show Calm s (if _ then _ else _)
    split
    · exact .refl s
    · exact emptyGate_calm s
  | held l s => exact emptyGate_calm s

theorem broadcastIdle_calm (x : Taken) : Calm x.left (broadcastIdle x).left := by
  cases x with
  | answered r v s => exact ite_calm (startIdle_calm s)
  | held l s => exact .refl s

theorem endDecisionStep_calm (s : State) (h : OrderInHand) : Calm s (s.endDecisionStep h) := by
  rw [endDecisionStep_only]
  exact .of_tables (by rfl)

theorem decideOrder_kept {rule : OrderRule} (hr : ∀ a t, Kept t (rule.take a t).left) (s : State) : Kept s (decideOrder rule s) := by
  unfold decideOrder
  split
  · exact .refl s
  · next h _ =>
    refine ite_kept (fun _ => .refl s) fun _ => ?_
    have ended := endDecisionStep_calm s h
    generalize s.endDecisionStep h = t at ended
    have answered : ∀ {u} r v z, Calm t u → Kept s (settleCore (buildAnswer h r v z u)) := fun r v z e =>
      (ended.trans (e.trans (buildAnswer_calm h r v z _))).kept.trans (settleCore_kept _)
    have taken : ∀ {x : Taken}, Kept t x.left → Kept s (settleCore (afterTake h x)) := fun e =>
      ((ended.kept.trans e).trans (afterTake_calm h _).kept).trans (settleCore_kept _)
    dsimp only
    split
    · exact .refl s
    · exact answered _ _ _ (.of_tables (by rfl))
    · exact answered _ _ _ (.of_tables (by rfl))
    · exact taken (checked_kept fun _ _ => (hr _ t).trans (broadcastIdle_calm _).kept)
    · exact taken (checked_kept fun _ _ => hr _ t)
    · have recorded : Calm t ({ t with store := { t.store with lastOrder := h.number } }).startIdle :=
        Calm.trans (.of_tables (by rfl)) (startIdle_calm _)
      refine taken ((recorded.kept.trans ?_).trans (dealWithGate_calm _ _).kept)
      exact checked_kept fun _ _ => hr _ _

/-! ### Commands -/

/-- What a command leaves keeps the bounds and the books. -/
def EndsKept (s : State) (o : Host.Outcome State Fault Refusal) : Prop := ∀ t, o = .next t → Kept s t

theorem endsKept_next {s t : State} (h : Kept s t) : EndsKept s (.next t) := by
  rintro _ ⟨⟩; exact h

theorem endsKept_ite {c : Prop} [Decidable c] {s : State} {x y : Host.Outcome State Fault Refusal} (hx : c → EndsKept s x)
    (hy : ¬c → EndsKept s y) : EndsKept s (if c then x else y) := by
  split
  · next h => exact hx h
  · next h => exact hy h

theorem endsKept_same (s : State) : EndsKept s (.next s) := endsKept_next (.refl s)

theorem Calm.ends {s t : State} (h : Calm s t) : EndsKept s (.next t) := endsKept_next h.kept

theorem Kept.ends_settled {s t : State} (h : Kept s t) : EndsKept s (.next (settleCore t)) :=
  endsKept_next (h.trans (settleCore_kept t))

theorem Kept.ends_taken {s t : State} (h : Kept s t) : EndsKept s (.next (settleUnit t)) :=
  endsKept_next (h.trans (settleUnit_kept t))

theorem endStep_calm (s : State) : Calm s s.endStep := .of_tables (by rfl)

section
variable (s : State)

/-! ### Frames that arrive -/

theorem flagUp_calm (f : UpFault) : Calm s (s.flagUp f) := by cases f <;> exact .of_tables (by rfl)

theorem receivesUp_room (h : ¬(!s.receivesUp) = true) : s.link.onwardQueue.length < 8 := by
  simp only [State.receivesUp, State.upstreamReady, Bool.not_eq_true', Bool.not_eq_false, Bool.and_eq_true, decide_eq_true_eq] at h
  exact h.2.1.2

theorem handOver_calm (frame : Bytes) (b : Bool) : Calm s (handOver frame b s) := by
  have untagged : ∀ h, Calm s (handUntagged h s) := fun h => by
    unfold handUntagged
    split
    · exact buildAnswer_calm _ _ _ _ s
    · exact .of_tables (by rfl)
  unfold handOver
  dsimp only
  split
  · exact .of_tables (by rfl)
  · split
    · exact untagged _
    · exact untagged _
    · exact .of_tables (by rfl)
    · exact .of_tables (by rfl)

theorem execOrderFrame_endsKept (frame : Bytes) : EndsKept s (execOrderFrame frame s) := by
  refine endsKept_ite (fun _ => endsKept_same s) fun ready => ?_
  have passed := passOnward_kept (receivesUp_room s ready) frame
  split
  · exact (flagUp_calm s _).ends
  · refine endsKept_ite (fun _ => endsKept_next ?_) fun _ => endsKept_same s
    refine ite_kept (fun _ => (handOver_calm s _ _).kept.trans (settleCore_kept _)) fun _ => ite_kept (fun _ => ?_) fun _ => passed
    refine Kept.trans ?_ (settleCore_kept _)
    exact (ite_kept (fun _ => .refl s) fun _ => passed).trans (handOver_calm _ _ _).kept

theorem execRecord_endsKept (frame : Bytes) : EndsKept s (execRecord frame s) := by
  refine endsKept_ite (fun _ => endsKept_same s) fun ready => ?_
  split
  · exact (flagUp_calm s _).ends
  · refine endsKept_ite (fun _ => ?_) fun _ => endsKept_same s
    exact (takeRecordFrame_kept (receivesUp_room s ready) frame).ends_taken

theorem execUpstreamFrameError_endsKept (frame : Bytes) : EndsKept s (execUpstreamFrameError frame s) := by
  refine endsKept_ite (fun _ => endsKept_same s) fun _ => ?_
  split
  · exact (flagUp_calm s _).ends
  · exact endsKept_same s

/-- A relayed frame joins a relay queue that has room (R130). -/
theorem execRelayFrame_endsKept (frame : Bytes) : EndsKept s (execRelayFrame frame s) := by
  refine endsKept_ite (fun _ => endsKept_same s) fun ready => ?_
  refine endsKept_ite (fun _ => (Calm.of_tables (by rfl)).ends) fun _ => endsKept_ite (fun _ => (Calm.of_tables (by rfl)).ends) fun _ =>
    endsKept_ite (fun _ => (Calm.of_tables (by rfl)).ends) fun _ => endsKept_next ⟨fun b => ?_, fun k => k.of_table rfl⟩
  simp only [State.onwardReady, Bool.not_eq_true', Bool.not_eq_false, Bool.and_eq_true, decide_eq_true_eq] at ready
  exact { b with
    relay := by
      show (s.link.relayQueue ++ [frame]).length ≤ 8
      simp only [List.length_append, List.length_singleton]; omega }

theorem execOutcome_endsKept (l : LineNo) (frame : Bytes) : EndsKept s (execOutcome l frame s) := by
  refine endsKept_ite (fun _ => endsKept_same s) fun _ => ?_
  split
  · next f _ => exact Calm.ends (setLine_calm (by cases f <;> rfl) (by cases f <;> exact le_rfl))
  · exact (takeOutcome_kept _ _ _ _ s).ends_taken

/-! ### The ends of cipher steps -/

theorem execEngineCipherStep_endsKept : EndsKept s (execEngineCipherStep s) := by
  unfold execEngineCipherStep
  split
  · split
    · exact (endStep_calm s).kept.ends_settled
    · exact (((endStep_calm s).kept.trans (kept_of_request (resume_state _ _ _))).trans (endWalk_kept _)).ends_taken
  · exact (endStep_calm s).kept.ends_settled
  · exact endsKept_same s

theorem execLoadUnwrapEnd_endsKept : EndsKept s (execLoadUnwrapEnd s) := by
  unfold execLoadUnwrapEnd
  split
  · exact endsKept_same s
  · split
    · next l _ =>
      refine endsKept_ite (fun _ => Kept.ends_settled ?_) fun _ => endsKept_same s
      have loaded := ((endStep_calm s).trans (endLoad_calm l s.coreResult _)).trans (lateLapse_calm l _)
      exact (loaded.kept.taking).trans (buildAnswer_calm _ _ _ _ _).kept
    · exact endsKept_same s

theorem setJob_calm (f : TagJob → NoticeTag) : Calm s (s.setJob f) := by
  have same : ∀ xs, (replaceJob f xs).length = xs.length := by
    intro xs
    induction xs with
    | nil => rfl
    | cons n rest ih => unfold replaceJob; split <;> simp [ih]
  exact { Calm.of_tables (s := s) (t := { s.setJob f with report := s.report }) rfl with
    notices := fun h => (same s.report.notices).le.trans h }

theorem stepKeyStoreSide_calm {t : State} {u : KsUser} {v : Block} (h : stepKeyStoreSide u v s = some t) : Calm s t := by
  have order : (match s.order.hand with
      | none => some s
      | some h => (nextHandling s v h.handling).map fun x => s.setHandling fun _ => x) = some t → Calm s t := by
    intro e
    split at e
    · cases e; exact .refl s
    · obtain ⟨x, -, rfl⟩ := Option.map_eq_some_iff.mp e
      exact .of_tables (by rfl)
  cases u with
  | verify =>
    simp only [stepKeyStoreSide] at h
    split at h <;> cases h
    exact .refl s
  | report =>
    simp only [stepKeyStoreSide] at h
    split at h
    · cases h; exact .refl s
    · split at h <;> cases h
      exact setJob_calm s _
  | order => exact order h
  | load => exact order h

theorem execKeyStoreSideCipherStep_endsKept : EndsKept s (execKeyStoreSideCipherStep s) := by
  unfold execKeyStoreSideCipherStep
  split
  · exact (endStep_calm s).kept.ends_settled
  · split
    · exact endsKept_same s
    · next h => exact ((endStep_calm s).trans (stepKeyStoreSide_calm _ h)).kept.ends_settled
  · exact endsKept_same s

theorem execAnswerBuilt_endsKept : EndsKept s (execAnswerBuilt s) := by
  unfold execAnswerBuilt
  split
  · exact endsKept_same s
  · split
    · exact endsKept_ite (fun _ => Kept.ends_settled (Calm.of_tables (by rfl)).kept) fun _ => endsKept_same s
    · exact endsKept_same s

theorem execNoticeBuilt_endsKept : EndsKept s (execNoticeBuilt s) := by
  unfold execNoticeBuilt
  split
  · exact endsKept_same s
  · refine endsKept_ite (fun _ => Kept.ends_settled ?_) fun _ => endsKept_same s
    exact ((endStep_calm s).trans (setJob_calm _ _)).kept

/-! ### Sending and the links -/

theorem execLineSendBegin_endsKept (l : LineNo) : EndsKept s (execLineSendBegin l s) :=
  endsKept_ite (fun _ => Calm.ends (setLine_calm (by rfl) (by rfl))) fun _ => endsKept_same s

theorem execLineSendComplete_endsKept (l : LineNo) : EndsKept s (execLineSendComplete l s) :=
  endsKept_ite (fun _ => Calm.ends (setLine_calm (by rfl) (by rfl))) fun _ => endsKept_same s

theorem execLineLinkLoss_endsKept (l : LineNo) : EndsKept s (execLineLinkLoss l s) :=
  endsKept_ite (fun _ => endsKept_same s) fun _ =>
    endsKept_ite (fun _ => Calm.ends (setLine_calm (by rfl) (by rfl))) fun _ =>
      Kept.ends_settled (Kept.telling s (Calm.kept (setLine_calm (by rfl) (by rfl))))

theorem execLineLinkRestore_endsKept (l : LineNo) : EndsKept s (execLineLinkRestore l s) :=
  endsKept_ite (fun _ => endsKept_same s) fun _ =>
    endsKept_ite (fun _ => Calm.ends (setLine_calm (by rfl) (by rfl))) fun _ =>
      Kept.ends_taken (Kept.telling s (Calm.kept (setLine_calm (by rfl) (by rfl))))

theorem execOnwardSendBegin_endsKept : EndsKept s (execOnwardSendBegin s) := by
  unfold execOnwardSendBegin
  split
  · exact endsKept_same s
  · next f rest h =>
    refine endsKept_ite (fun _ => Calm.ends ?_) fun _ => endsKept_same s
    exact { Calm.refl s with onward := by rw [h]; exact Nat.le_succ _ }

theorem leaveSource_calm (src : Source) : Calm s (s.leaveSource src) := by
  cases src with
  | answer => exact .of_tables (by rfl)
  | notice =>
    exact { Calm.refl s with
      notices := fun h => by
        show s.report.notices.tail.length ≤ 16
        rw [List.length_tail]; omega }
  | relay =>
    exact { Calm.refl s with
      relay := by
        show s.link.relayQueue.tail.length ≤ s.link.relayQueue.length
        rw [List.length_tail]; omega }

theorem execUpstreamTransmitChoice_endsKept : EndsKept s (execUpstreamTransmitChoice s) := by
  refine endsKept_ite (fun _ => ?_) fun _ => endsKept_same s
  split
  · exact endsKept_same s
  · exact Calm.ends ((leaveSource_calm s _).trans (.of_tables (by rfl)))

theorem execPortLink_endsKept (p : Port) : EndsKept s (execPortLinkLoss p s) ∧ EndsKept s (execPortLinkRestore p s) := by
  cases p <;> exact ⟨(Calm.of_tables (by rfl)).ends, (Calm.of_tables (by rfl)).ends⟩

/-! ### The timers and the store's long operations -/

theorem expired_ok {n : Word} {o : Nat} {r : Run} {p : Position} {l : LineNo} (h : s.expired n o = some (r, p, l)) :
    s.run n = some r ∧ r.position o = some p ∧ p.state = .out := by
  unfold State.expired at h
  split at h
  · cases h
  · next x hx =>
    split at h
    · cases h
    · next q hq =>
      split at h
      · next out _ _ =>
        split at h <;> cases h
        exact ⟨hx, hq, out⟩
      · cases h

theorem execLapse_endsKept (run : Word) (offset : Nat) : EndsKept s (execLapse run offset s) := by
  refine endsKept_ite (fun _ => endsKept_same s) fun _ => ?_
  split
  · exact endsKept_same s
  · next h =>
    obtain ⟨hr, hp, out⟩ := expired_ok s h
    exact (lapsePosition_kept hr hp out).ends_taken

theorem execIdleMinuteDeadline_endsKept : EndsKept s (execIdleMinuteDeadline s) := by
  unfold execIdleMinuteDeadline
  split
  · exact endsKept_same s
  · exact endsKept_ite (fun _ => (Calm.of_tables (by rfl)).ends) fun _ => endsKept_same s

theorem execIdleTimerExpiry_endsKept : EndsKept s (execIdleTimerExpiry s) := by
  unfold execIdleTimerExpiry
  split
  · exact endsKept_same s
  · exact endsKept_ite (fun _ => (enterDormant_calm s).kept.ends_settled) fun _ => endsKept_same s

theorem execSlotVerifyStep_endsKept : EndsKept s (execSlotVerifyStep s) := by
  unfold execSlotVerifyStep
  split
  · exact endsKept_same s
  · refine endsKept_ite (fun _ => Kept.ends_taken ?_) fun _ => endsKept_same s
    exact (endStep_calm s).kept.trans (verifySlot_kept _ _ _)

theorem endScrub_calm (v : KeyVariant) (values : Bytes) : Calm s (releaseVerify (offerKey v values s.endScrub)) := by
  have told : Calm s (offerKey v values s.endScrub) := Calm.trans (.of_tables (by rfl)) (offer_calm _ _ _ s.endScrub)
  exact told.trans (releaseVerify_calm _)

theorem execScrubComplete_endsKept : EndsKept s (execEraseScrubComplete s) ∧ EndsKept s (execZeroiseScrubComplete s) := by
  unfold execEraseScrubComplete execZeroiseScrubComplete
  constructor
  all_goals
    split
    · exact (endScrub_calm s _ _).kept.ends_settled
    · exact endsKept_same s

/-! ### Power -/

/-- The main domain at its reset values: every table of it is empty (R180). -/
theorem reset_kept {t : State} (runs : t.runs = .initial) (notices : t.report.notices = []) (onward : t.link.onwardQueue = [])
    (relay : t.link.relayQueue = []) (gate : t.order.gate.grants = []) (record : t.tamper.record.length ≤ s.tamper.record.length)
    (lines : t.dispatch = .initial s.lineLinks) : Kept s t where
  bounds := fun b => {
    table := by rw [runs]; exact Nat.zero_le _
    staging := by rw [runs]; exact Nat.zero_le _
    notices := by rw [notices]; exact Nat.zero_le _
    onward := by rw [onward]; exact Nat.zero_le _
    relay := by rw [relay]; exact Nat.zero_le _
    gate := by rw [gate]; exact Nat.zero_le _
    record := record.trans b.record
    limits := fun l => by simp [State.line, lines, Dispatcher.initial, Line.initial]
    credit := fun l => by simp [State.line, lines, Dispatcher.initial, Line.initial] }
  books := fun _ => ⟨by rw [runs]; exact List.nodup_nil, by rw [runs]; exact nofun⟩

theorem execMainLoss_endsKept : EndsKept s (execMainLoss s) :=
  endsKept_ite (fun _ => endsKept_next (reset_kept s rfl rfl rfl rfl rfl le_rfl rfl)) fun _ => endsKept_same s

theorem firstPowerState_kept : Kept s (firstPowerState s) := reset_kept s rfl rfl rfl rfl rfl (Nat.zero_le _) rfl

theorem execFirstPower_endsKept : EndsKept s (execFirstPower s) :=
  endsKept_ite (fun _ => endsKept_next ((firstPowerState_kept s).trans (offer_calm _ _ _ _).kept)) fun _ => endsKept_same s

theorem execBatteryLoss_endsKept : EndsKept s (execBatteryLoss s) :=
  endsKept_ite (fun _ => endsKept_next ((firstPowerState_kept s).trans (Calm.of_tables (by rfl)).kept)) fun _ => endsKept_same s

theorem resumeWork_calm : Calm s (resumeWork s) := Calm.trans (.of_tables (by rfl)) (startIdle_calm s.readyCopies)

theorem reportRestore_calm : Calm s (reportRestore s) := by
  unfold reportRestore
  dsimp only
  have cleared : Calm s { s with tamper := { s.tamper with batteryTrips := .zero } } := .of_tables (by rfl)
  exact (cleared.trans (offer_calm _ _ _ _)).trans (.of_tables (by rfl))

theorem restoreVerify_calm : Calm s (restoreVerify s) := by
  unfold restoreVerify
  split
  · exact .of_tables (by rfl)
  · exact visitFrom_calm _ _ _ s

theorem restartVerify_calm : Calm s (restartVerify s) := by
  unfold restartVerify
  split
  · exact .refl s
  · exact visitFrom_calm _ _ _ s

theorem execMainRestore_endsKept : EndsKept s (execMainRestore s) := by
  refine endsKept_ite (fun _ => Kept.ends_settled ?_) fun _ => endsKept_same s
  have restored : Kept s (restoreDomains s) := reset_kept s rfl rfl rfl rfl rfl le_rfl rfl
  have reported := (reportRestore_calm (restoreDomains s)).trans (lapseAssemblies_calm _)
  exact restored.trans ((reported.trans (restoreVerify_calm _)).trans (resumeWork_calm _)).kept

theorem execWarmReset_endsKept : EndsKept s (execWarmReset s) := by
  refine endsKept_ite (fun _ => Kept.ends_settled ?_) fun _ => endsKept_same s
  have restarted : Kept s (warmDomains s) := reset_kept s rfl rfl rfl rfl rfl le_rfl rfl
  have reported := (offer_calm .power PowerCause.warmReset.code (powerValues .warmReset (warmDomains s) none none none)
    (warmDomains s)).trans (lapseAssemblies_calm _)
  exact restarted.trans ((reported.trans (restartVerify_calm _)).trans (resumeWork_calm _)).kept

/-! ### Every command -/

theorem execOrder_endsKept {c : Instr} {rule : OrderRule} (h : orderRule c = some rule) : EndsKept s (exec c s) := by
  rw [exec_order h]
  exact endsKept_next (decideOrder_kept (orderRule_kept h) s)

theorem exec_endsKept (c : Instr) : EndsKept s (exec c s) := by
  cases c with
  | orderFrame frame => exact execOrderFrame_endsKept s frame
  | record frame => exact execRecord_endsKept s frame
  | upstreamFrameError frame => exact execUpstreamFrameError_endsKept s frame
  | engineCipherStep => exact execEngineCipherStep_endsKept s
  | loadUnwrapEnd => exact execLoadUnwrapEnd_endsKept s
  | answerBuilt => exact execAnswerBuilt_endsKept s
  | noticeBuilt => exact execNoticeBuilt_endsKept s
  | outcome l frame => exact execOutcome_endsKept s l frame
  | lapse run offset => exact execLapse_endsKept s run offset
  | lineSendBegin l => exact execLineSendBegin_endsKept s l
  | lineSendComplete l => exact execLineSendComplete_endsKept s l
  | lineLinkLoss l => exact execLineLinkLoss_endsKept s l
  | lineLinkRestore l => exact execLineLinkRestore_endsKept s l
  | relayFrame frame => exact execRelayFrame_endsKept s frame
  | onwardSendBegin => exact execOnwardSendBegin_endsKept s
  | onwardSendComplete => exact endsKept_ite (fun _ => (Calm.of_tables (by rfl)).ends) fun _ => endsKept_same s
  | upstreamTransmitChoice => exact execUpstreamTransmitChoice_endsKept s
  | upstreamSendComplete => exact endsKept_ite (fun _ => (Calm.of_tables (by rfl)).ends) fun _ => endsKept_same s
  | portLinkLoss p => exact (execPortLink_endsKept s p).1
  | portLinkRestore p => exact (execPortLink_endsKept s p).2
  | assemblyLapse n => exact endsKept_ite (fun _ => (lapseAssembly_calm n s).kept.ends_settled) fun _ => endsKept_same s
  | gateLapse => exact endsKept_ite (fun _ => (emptyGate_calm s).ends) fun _ => endsKept_same s
  | settlingExpiry => exact endsKept_ite (fun _ => (Calm.of_tables (by rfl)).ends) fun _ => endsKept_same s
  | idleMinuteDeadline => exact execIdleMinuteDeadline_endsKept s
  | idleTimerExpiry => exact execIdleTimerExpiry_endsKept s
  | secondsClockAdvance => exact endsKept_ite (fun _ => (Calm.of_tables (by rfl)).ends) fun _ => endsKept_same s
  | slotVerifyStep => exact execSlotVerifyStep_endsKept s
  | eraseScrubComplete => exact (execScrubComplete_endsKept s).1
  | zeroiseScrubComplete => exact (execScrubComplete_endsKept s).2
  | sensorInputActive i =>
    exact endsKept_ite (fun _ => endsKept_same s) fun _ => endsKept_ite (fun _ => (Calm.of_tables (by rfl)).ends) fun _ =>
      Kept.ends_settled ((Calm.of_tables (by rfl)).kept.trans (considerSensor_kept i (s.setInput i true)))
  | sensorInputInactive i =>
    exact endsKept_ite (fun _ => endsKept_same s) fun _ => endsKept_ite (fun _ => (Calm.of_tables (by rfl)).ends) fun _ =>
      Kept.ends_taken (Calm.trans (.of_tables (by rfl)) (inputReturned_calm i (s.setInput i false))).kept
  | qualificationExpiry i => exact endsKept_ite (fun _ => (trip_kept i s).ends_settled) fun _ => endsKept_same s
  | windowEnd => exact endsKept_ite (fun _ => (closeWindow_kept s).ends_settled) fun _ => endsKept_same s
  | mainLoss => exact execMainLoss_endsKept s
  | firstPower => exact execFirstPower_endsKept s
  | mainRestore => exact execMainRestore_endsKept s
  | warmReset => exact execWarmReset_endsKept s
  | keyStoreSideCipherStep => exact execKeyStoreSideCipherStep_endsKept s
  | batteryLoss => exact execBatteryLoss_endsKept s
  | _ => exact execOrder_endsKept s rfl

/-- A step, of a command or the tick, keeps the bounds and the books. -/
theorem step_kept {t : State} (h : step s = .next t) : Kept s t := by
  unfold step at h
  split at h
  · cases h
    exact ite_kept (fun _ => (Calm.of_tables (by rfl)).kept) fun _ => .refl s
  · next c rest _ => exact (Calm.of_tables (t := { s with pending := rest }) (by rfl)).kept.trans (exec_endsKept _ c t h)

end

/-- Settles O4: the bounds are one half of what every step keeps (`step_kept`). -/
theorem boundsKept : Obligations.BoundsKept := fun s _ hs ht => (step_kept s ht).bounds hs

/-- Settles O6: the books are the other half. -/
theorem booksStayLawful : Obligations.BooksStayLawful := fun s _ hs ht => (step_kept s ht).books hs

end Sys2Proof.Machine
end

section
/-! Proofs. The advance of the low mark (R56, R70) and the spoil allowance (R49). -/

namespace Sys2Proof.Machine

theorem inWindow_iff (r : Run) (o : Nat) : r.inWindow o = true ↔ r.low ≤ o ∧ o < r.low + 64 ∧ o < r.quantity := by
  simp [Run.inWindow, and_assoc]

/-- A position that the raised low mark leaves in the window is as it was (R56). -/
theorem raiseLow_position {r : Run} {o : Nat} (above : r.low < o) (below : o < r.low + 64) :
    r.raiseLow.position o = r.position o := by
  have window : r.raiseLow.inWindow o = r.inWindow o := by
    rw [Bool.eq_iff_iff, inWindow_iff, inWindow_iff]
    show r.low + 1 ≤ o ∧ o < r.low + 1 + 64 ∧ o < r.quantity ↔ _
    omega
  have other : ¬ r.low % 64 = o % 64 := by omega
  rw [Run.position, Run.position, window]
  simp [Run.raiseLow, Run.setPosition, ringEntry, other]

/-- The position that enters the window with the raised low mark is OPEN (R56). -/
theorem raiseLow_fresh {r : Run} (h : r.low + 64 < r.quantity) : r.raiseLow.position (r.low + 64) = some Position.fresh := by
  have window : r.raiseLow.inWindow (r.low + 64) = true := by
    rw [inWindow_iff]
    show r.low + 1 ≤ r.low + 64 ∧ r.low + 64 < r.low + 1 + 64 ∧ r.low + 64 < r.quantity
    omega
  rw [Run.position, window]
  simp [Run.raiseLow, Run.setPosition, ringEntry, h]

/-- What an advance of at most so many places comes to: `a` is `r` with its low mark moved up past settled positions (R56). -/
structure Run.Advanced (k : Nat) (r a : Run) : Prop where
  up : r.low ≤ a.low
  places : a.low ≤ r.low + k
  inside : r.low ≤ r.quantity → a.low ≤ r.quantity
  passed : ∀ o, r.low ≤ o → o < a.low → ∃ p, r.position o = some p ∧ (p.state = .done ∨ p.state = .voided)
  stopped : a.lowSettled = false ∨ a.low = r.low + k
  kept : ∀ o, a.low ≤ o → o < r.low + 64 → a.position o = r.position o
  fresh : ∀ o, r.low + 64 ≤ o → o < a.low + 64 → o < r.quantity → a.position o = some Position.fresh

/-- The mark stays where it is. -/
theorem Run.Advanced.stay {k : Nat} {r : Run} (h : r.lowSettled = false ∨ r.low = r.low + k) : Run.Advanced k r r where
  up := le_refl _
  places := by omega
  inside := id
  passed := fun o _ _ => by omega
  stopped := h
  kept := fun _ _ _ => rfl
  fresh := fun o _ _ => by omega

/-- One place and the places that follow it (R56). -/
theorem Run.Advanced.raise {k : Nat} {r a : Run} (hs : r.lowSettled = true) (h : Run.Advanced k r.raiseLow a) (hk : k < 64) :
    Run.Advanced (k + 1) r a := by
  obtain ⟨p, hp, settled⟩ := (lowSettled_iff r).mp hs
  have raised : r.raiseLow.low = r.low + 1 := rfl
  have quantity : r.raiseLow.quantity = r.quantity := rfl
  have within := (inWindow_iff _ _).mp (inWindow_of_position hp)
  have up := h.up
  have places := h.places
  constructor
  case up => omega
  case places => omega
  case inside => exact fun _ => h.inside (by omega)
  case passed =>
    intro o lower upper
    obtain rfl | above := lower.eq_or_lt
    · exact ⟨p, hp, settled⟩
    · rw [← raiseLow_position above (by omega)]
      exact h.passed o above upper
  case stopped => exact h.stopped.imp id fun e => by omega
  case kept =>
    intro o lower upper
    rw [h.kept o lower (by omega), raiseLow_position (by omega) upper]
  case fresh =>
    intro o lower upper run
    obtain rfl | above := lower.eq_or_lt
    · rw [h.kept _ (by omega) (by omega), raiseLow_fresh run]
    · exact h.fresh o (by omega) upper run

theorem advanceLow_advanced (k : Nat) (r : Run) (hk : k ≤ 64) : Run.Advanced k r (r.advanceLow k) := by
  induction k generalizing r with
  | zero => exact .stay (.inr rfl)
  | succ k ih =>
    unfold Run.advanceLow
    split
    · next hs => exact (ih r.raiseLow (by omega)).raise hs hk
    · next hs => exact .stay (.inl (by simpa using hs))

/-- The low mark never stops at a settled position: the 65th is OPEN, since it has just entered the window (R56). -/
theorem advance_stopped (r : Run) : r.advance.lowSettled = false := by
  have h : Run.Advanced 64 r r.advance := advanceLow_advanced 64 r le_rfl
  obtain stopped | last := h.stopped
  · exact stopped
  · rw [← Bool.not_eq_true, lowSettled_iff]
    rintro ⟨p, hp, settled⟩
    have within := (inWindow_iff _ _).mp (inWindow_of_position hp)
    rw [advance_quantity] at within
    have entered := h.fresh r.advance.low last.ge (by omega) within.2.2
    obtain rfl : Position.fresh = p := Option.some.inj (entered.symm.trans hp)
    simp [Position.fresh] at settled

/-- Settles O50: one place of the mark at a time, by induction on the places. -/
theorem lowMarkAdvances : Obligations.LowMarkAdvances := by
  intro r hlow
  have h : Run.Advanced 64 r r.advance := advanceLow_advanced 64 r le_rfl
  have unsettled := (lowSettled_iff r.advance).not.mp (by rw [advance_stopped]; exact Bool.false_ne_true)
  exact ⟨h.up, h.places, h.inside hlow, h.passed,
    fun p hp => ⟨fun e => unsettled ⟨p, hp, .inl e⟩, fun e => unsettled ⟨p, hp, .inr e⟩⟩, h.kept, h.fresh, advance_only r⟩

/-! ### The spoil allowance (R49) -/

theorem roundThousandth_below {m : Nat} (h : m % 1000 < 500) : roundThousandth m = m / 1000 := by simp [roundThousandth, h]

theorem roundThousandth_above {m : Nat} (h : 500 < m % 1000) : roundThousandth m = m / 1000 + 1 := by
  simp [roundThousandth, h, h.le]

theorem roundThousandth_half {m : Nat} (h : m % 1000 = 500) : roundThousandth m = m / 1000 + m / 1000 % 2 := by
  obtain even | odd := Nat.mod_two_eq_zero_or_one (m / 1000)
  · simp [roundThousandth, h, even]
  · simp [roundThousandth, h, odd]

/-- Settles O13, by the three stages of the rounding. -/
theorem allowanceIsR49 : Obligations.AllowanceIsR49 := by
  refine ⟨fun q p _ hq hp => ⟨?_, fun h => ?_, fun h => ?_, fun h even => ?_, fun h odd => ?_⟩, fun _ _ => rfl⟩
  · calc q * p ≤ 2000000 * 250 := Nat.mul_le_mul hq hp
      _ = 500000000 := rfl
  · rw [spoilAllowance, roundThousandth_below h]
  · rw [spoilAllowance, roundThousandth_above h]
  · rw [spoilAllowance, roundThousandth_half h, even, Nat.add_zero]
  · rw [spoilAllowance, roundThousandth_half h, odd]

end Sys2Proof.Machine
end

section
/-! Proofs. The books of a run after an outcome and after a lapse (R64, R67, R69, R112, R116). -/

namespace Sys2Proof.Machine

/-! ### A run that the table knows -/

/-- The Run Table holds this run, and no number twice (R43). -/
structure State.Knows (s : State) (r : Run) : Prop where
  unique : (s.runs.table.map Run.number).Nodup
  mem : r ∈ s.runs.table

theorem State.Knows.run {s : State} {r : Run} (h : s.Knows r) : s.run r.number = some r := run_of_mem h.unique h.mem

theorem State.Knows.of_runs {s t : State} {r : Run} (h : s.Knows r) (e : t.runs = s.runs) : t.Knows r :=
  ⟨e ▸ h.unique, e ▸ h.mem⟩

theorem State.Knows.put {s : State} {r y : Run} (h : s.Knows r) (e : y.number = r.number) : (s.putRun r.number y).Knows y := by
  rw [← e]
  exact ⟨by rw [putRun_numbers]; exact h.unique, mem_putRun h.mem e⟩

theorem State.Knows.update {s : State} {r : Run} (h : s.Knows r) (f : Run → Run) :
    s.updateRun r.number f = s.putRun r.number (f r) := updateRun_eq h.unique h.mem f

/-- A run replaced twice is the run last put, whatever notices were offered in between. -/
theorem putRun_again {s t : State} {n : Word} {y : Run} (z : Run) (e : y.number = n) (ht : t.runs = (s.putRun n y).runs) :
    t.putRun n z = { t with runs := (s.putRun n z).runs } := by
  have table : (s.runs.table.map fun x => if x.number = n then y else x).map (fun x => if x.number = n then z else x) =
      s.runs.table.map fun x => if x.number = n then z else x := by
    rw [List.map_map]
    refine List.map_congr_left fun x _ => ?_
    by_cases h : x.number = n <;> simp [h, e]
  simp only [State.putRun] at ht ⊢
  rw [ht, table]

theorem closeTest_other {s : State} {r : Run} (h : s.Knows r) (hc : r.state ≠ .closing) : closeTest r.number s = s := by
  rw [closeTest_eq h.unique h.mem, if_neg]
  simp [Run.canClose, hc]

/-- The mark of a run that neither moves nor stands at Q: nothing happens (R56, R70). -/
theorem advanceRun_stays {s : State} {r : Run} (h : s.Knows r) (hs : r.lowSettled = false) (hq : r.low ≠ r.quantity) :
    advanceRun r.number s = s.putRun r.number r := by
  have same : r.advance = r := by simp [Run.advance, Run.advanceLow, hs]
  rw [advanceRun_eq h.unique h.mem, same, if_neg fun c => hq c.1]

/-! ### The line -/

/-- The credit comes back; the waiting frame goes unless its sending has begun (R116). -/
theorem returnCard_eq (x : Line) (n seq : Word) :
    x.returnCard n seq =
      let waits := fun q : List CardFrame => q.filter fun c => decide (¬(c.run = n ∧ c.seq = seq))
      { x with
        occupied := x.occupied - 1
        transmit := if x.begun then x.transmit.take 1 ++ waits (x.transmit.drop 1) else waits x.transmit } := by
  have test : (fun c : CardFrame => !(c.run == n && c.seq == seq)) = fun c => decide (¬(c.run = n ∧ c.seq = seq)) := by
    funext c
    rw [Bool.eq_iff_iff]
    simp
  simp only [Line.returnCard, Line.removeFrame, test]
  cases x.begun
  · rfl
  · cases x.transmit <;> rfl

/-! ### The run -/

theorem overspoilTest_eq (r : Run) :
    r.overspoilTest = { r with
      holds := if r.allowance < r.spoiled then { r.holds with overspoil := true } else r.holds
      state := if r.allowance < r.spoiled ∧ r.state = .live then .held else r.state } := by
  by_cases h : r.allowance < r.spoiled
  · simp [Run.overspoilTest, Run.addCause, h]
  · simp [Run.overspoilTest, h]

theorem progressTest_eq {s : State} {r : Run} (h : s.Knows r) :
    progressTest r.number s =
      if r.postscaler ≤ r.progress then offerProgress { r with progress := 0 } (s.putRun r.number { r with progress := 0 })
      else s := by
  simp only [progressTest, h.run]
  split
  · exact changeRun_eq h.unique h.mem rfl offerProgress
  · rfl

/-! ### A settlement -/

/-- DONE below the postscaler (R64). -/
theorem settle_done {s : State} {l : LineNo} {r : Run} {o : Nat} {seq : Word} {p : Position} (h : s.Knows r)
    (hp : r.progress + 1 < r.postscaler) :
    settle l r.number o seq p .done s =
      closeTest r.number (advanceRun r.number
        ((s.setLine l { (s.line l).returnCard r.number seq with consecutive := 0 }).putRun r.number (r.finish o p))) := by
  have line := h.of_runs (t := s.setLine l { (s.line l).returnCard r.number seq with consecutive := 0 }) rfl
  have put := line.put (y := r.finish o p) rfl
  simp only [settle, line.update]
  exact congrArg (fun t => closeTest _ (advanceRun _ t)) ((progressTest_eq put).trans (if_neg (not_le.mpr hp)))

/-- DONE at the postscaler: the count returns to 0 with a PROGRESS notice (R69). -/
theorem settle_done_progress {s : State} {l : LineNo} {r : Run} {o : Nat} {seq : Word} {p : Position} (h : s.Knows r)
    (hp : r.postscaler ≤ r.progress + 1) :
    settle l r.number o seq p .done s =
      closeTest r.number (advanceRun r.number (offerProgress { r.finish o p with progress := 0 }
        ((s.setLine l { (s.line l).returnCard r.number seq with consecutive := 0 }).putRun r.number
          { r.finish o p with progress := 0 }))) := by
  have line := h.of_runs (t := s.setLine l { (s.line l).returnCard r.number seq with consecutive := 0 }) rfl
  have put := line.put (y := r.finish o p) rfl
  have again := putRun_again (s := s.setLine l { (s.line l).returnCard r.number seq with consecutive := 0 })
    (y := r.finish o p) { r.finish o p with progress := 0 } rfl rfl
  simp only [settle, line.update]
  refine congrArg (fun t => closeTest _ (advanceRun _ t)) ((progressTest_eq put).trans ((if_pos hp).trans ?_))
  exact congrArg (offerProgress _) again

/-- The line of a card that comes back spoiled or rejected (R64, R116). -/
def Line.spoilt (x : Line) (n seq : Word) (res : CardResult) : Line :=
  if res = .rejected then { x.returnCard n seq with rejects := bumpCounter max16 x.rejects } else x.returnCard n seq

/-- A card spoiled or rejected below its fourth attempt (R64, R52). -/
theorem settle_spoiled {s : State} {l : LineNo} {r : Run} {o : Nat} {seq : Word} {p : Position} {res : CardResult}
    (h : s.Knows r) (hres : res = .spoiled ∨ res = .rejected) (ha : p.attempt ≠ 4) :
    settle l r.number o seq p res s =
      closeTest r.number ((s.setLine l ((s.line l).spoilt r.number seq res)).putRun r.number (r.spoil o p).overspoilTest) := by
  have line := h.of_runs (t := s.setLine l ((s.line l).spoilt r.number seq res)) rfl
  have put := line.put (y := r.spoil o p) rfl
  have again := putRun_again (s := s.setLine l ((s.line l).spoilt r.number seq res)) (y := r.spoil o p)
    (r.spoil o p).overspoilTest rfl rfl
  have unfolded : settle l r.number o seq p res s =
      closeTest r.number (((s.setLine l ((s.line l).spoilt r.number seq res)).updateRun r.number
        fun r => r.spoil o p).updateRun r.number Run.overspoilTest) := by
    obtain rfl | rfl := hres <;> simp only [settle, if_neg ha] <;> rfl
  rw [unfolded, line.update]
  exact congrArg (closeTest _) ((put.update _).trans again)

/-- A card spoiled or rejected at its fourth attempt is VOID (R64, R52, R70). -/
theorem settle_voided {s : State} {l : LineNo} {r : Run} {o : Nat} {seq : Word} {p : Position} {res : CardResult}
    (h : s.Knows r) (hres : res = .spoiled ∨ res = .rejected) (ha : p.attempt = 4) :
    settle l r.number o seq p res s =
      closeTest r.number (advanceRun r.number
        ((offerCard .voided r.number seq l (byteOf p.attempt)
          ((s.setLine l ((s.line l).spoilt r.number seq res)).putRun r.number (r.spoil o p))).putRun r.number
            (r.spoil o p).overspoilTest)) := by
  have line := h.of_runs (t := s.setLine l ((s.line l).spoilt r.number seq res)) rfl
  have put := line.put (y := r.spoil o p) rfl
  have unfolded : settle l r.number o seq p res s =
      closeTest r.number (advanceRun r.number
        ((offerCard .voided r.number seq l (byteOf p.attempt)
          ((s.setLine l ((s.line l).spoilt r.number seq res)).updateRun r.number fun r => r.spoil o p)).updateRun r.number
            Run.overspoilTest)) := by
    obtain rfl | rfl := hres <;> simp only [settle, if_pos ha] <;> rfl
  rw [unfolded, line.update]
  exact congrArg (fun t => closeTest _ (advanceRun _ t)) ((put.of_runs (offer_only _ _ _ _).runs).update _)

/-- A run put in place of another, and not CLOSING, passes the closing test unchanged (R72). -/
theorem closeTest_put {s : State} {r y : Run} (h : s.Knows r) (e : y.number = r.number) (hc : y.state ≠ .closing) :
    closeTest r.number (s.putRun r.number y) = s.putRun r.number y := by
  have := closeTest_other (h.put e) hc
  rwa [e] at this

theorem overspoilTest_not_closing {r : Run} (h : r.state ≠ .closing) : r.overspoilTest.state ≠ .closing := by
  rw [overspoilTest_eq]
  dsimp only
  split <;> simp [h]

/-- Settles O48, by the three results. -/
theorem settlementKeepsTheBooks : Obligations.SettlementKeepsTheBooks := by
  intro s l r seq p unique mem n o hp x waits back becomes finished counted spoiledRun overspoilt doneLine spoilLine
  have known : s.Knows r := ⟨unique, mem⟩
  have returned : (s.line l).returnCard n seq = back := returnCard_eq _ _ _
  have lineDone : s.setLine l { (s.line l).returnCard n seq with consecutive := 0 } = doneLine := by rw [returned]
  have lineSpoilt (res : CardResult) : s.setLine l ((s.line l).spoilt n seq res) = spoilLine res := by
    simp only [Line.spoilt, returned]; rfl
  have tested : (r.spoil o p).overspoilTest = overspoilt spoiledRun := overspoilTest_eq _
  have done (hp : r.progress + 1 < r.postscaler) :
      settle l n o seq p .done s = closeTest n (advanceRun n (becomes doneLine finished)) := by
    rw [settle_done known hp, lineDone]; rfl
  have below (ha : p.attempt ≠ 4) (res : CardResult) (hres : res = .spoiled ∨ res = .rejected) :
      settle l n o seq p res s = closeTest n (becomes (spoilLine res) (overspoilt spoiledRun)) := by
    rw [settle_spoiled known hres ha, lineSpoilt, tested]; rfl
  have lineKnown {t : State} {y : Line} (e : t = s.setLine l y) : t.Knows r := known.of_runs (by rw [e]; rfl)
  refine ⟨done, fun hp => ?_, fun res hres => ⟨fun ha => below ha res hres, fun ha => ?_⟩,
    fun hc => ⟨fun hp hs hq => ?_, ?_⟩⟩
  · rw [settle_done_progress known hp, lineDone]
    simp only [offerProgress, Run.counters, List.append_assoc]
    rfl
  · rw [settle_voided known hres ha, lineSpoilt, tested, ha]; rfl
  · have put : (becomes doneLine finished).Knows finished := (lineKnown rfl).put (y := finished) rfl
    have again : (becomes doneLine finished).putRun n finished = becomes doneLine finished :=
      putRun_again (s := doneLine) (y := finished) finished rfl rfl
    rw [done hp]
    exact (congrArg (closeTest n) ((advanceRun_stays put hs hq).trans again)).trans (closeTest_other (r := finished) put hc)
  · intro ha res hres
    rw [below ha res hres]
    refine closeTest_put (y := overspoilt spoiledRun) (lineKnown rfl) rfl ?_
    rw [← tested]
    exact overspoilTest_not_closing hc

/-! ### A lapse -/

/-- The unit when a position has lapsed and its notices are offered, before the comparison of R52 (R67, R112). -/
def State.lapsedTold (s : State) (l : LineNo) (r : Run) (o : Nat) (seq : Word) (p : Position) : State :=
  let lapsed := offerCard .lapsed r.number seq l (byteOf p.attempt)
    ((s.setLine l ((s.line l).returnCard r.number seq).countLapse).putRun r.number (r.lapse o p l))
  lineNotices s (if p.attempt = 4 then offerCard .voided r.number seq l (byteOf p.attempt) lapsed else lapsed)

theorem lapsedTold_knows {s : State} {l : LineNo} {r : Run} {o : Nat} {seq : Word} {p : Position} (h : s.Knows r) :
    (s.lapsedTold l r o seq p).Knows (r.lapse o p l) := by
  have line := h.of_runs (t := s.setLine l ((s.line l).returnCard r.number seq).countLapse) rfl
  refine (line.put (y := r.lapse o p l) rfl).of_runs ?_
  unfold State.lapsedTold
  dsimp only
  rw [lineNotices_runs]
  split
  · rw [offerCard, (offer_only _ _ _ _).runs]; exact (offer_only _ _ _ _).runs
  · exact (offer_only _ _ _ _).runs

/-- A lapse: the books of the run, the line's count, the notices; at the fourth attempt the low mark; then the closing test (R67). -/
theorem lapsePosition_eq {s : State} {l : LineNo} {r : Run} {o : Nat} {seq : Word} {p : Position} (h : s.Knows r) :
    lapsePosition l r.number o seq p s =
      closeTest r.number
        (if p.attempt = 4 then
          advanceRun r.number ((s.lapsedTold l r o seq p).putRun r.number (r.lapse o p l).overspoilTest)
        else (s.lapsedTold l r o seq p).putRun r.number (r.lapse o p l).overspoilTest) := by
  have line := h.of_runs (t := s.setLine l ((s.line l).returnCard r.number seq).countLapse) rfl
  have tested := (lapsedTold_knows (l := l) (o := o) (seq := seq) (p := p) h).update Run.overspoilTest
  simp only [lapsePosition, line.update]
  simp only [State.lapsedTold] at tested ⊢
  exact congrArg (fun t => closeTest _ (if p.attempt = 4 then advanceRun _ t else t)) tested

/-! ### The event -/

theorem Steady.quiet {s t : State} (h : Steady s t) (hq : s.quiet) : t.quiet :=
  ⟨fun k hk => hq.1 k (h.queue.subset hk), fun x l hx => hq.2 x l (h.hand ▸ hx)⟩

theorem expired_not_out {s : State} {r : Run} {o : Nat} {p : Position} (hr : s.run r.number = some r) (hp : r.position o = some p)
    (ho : p.state ≠ .out) : s.expired r.number o = none := by
  simp only [State.expired, hr, hp]
  split
  · contradiction
  · rfl

theorem expired_out {s : State} {r : Run} {o : Nat} {p : Position} {l : LineNo} {d : Word} (hr : s.run r.number = some r)
    (hp : r.position o = some p) (ho : p.state = .out) (hl : p.line = some l) (hd : p.dispatched = some d) :
    s.expired r.number o =
      if (s.time.millis - (d + BitVec.ofNat 32 r.timeout)).toNat < 2147483648 then some (r, p, l) else none := by
  simp only [State.expired, hr, hp, ho, hl, hd, deadlineReached, decide_eq_true_eq]

theorem execLapse_none {s : State} {n : Word} {o : Nat} (h : s.expired n o = none) : exec (.lapse n o) s = .next s := by
  show execLapse n o s = _
  simp only [execLapse, h, ite_self]

theorem execLapse_expired {s : State} {n : Word} {o : Nat} {r : Run} {p : Position} {l : LineNo} (hm : s.power.supply = .main)
    (h : s.expired n o = some (r, p, l)) :
    exec (.lapse n o) s = .next (settleUnit (lapsePosition l n o (r.seqOf o) p s)) := by
  have up : s.mainUp = true := by simp [State.mainUp, hm]
  show execLapse n o s = _
  simp [execLapse, h, up]

/-- Settles O49, by the books of one lapse. -/
theorem outcomeTimerLapses : Obligations.OutcomeTimerLapses := by
  intro s r o p l d hm unique mem hp hq n seq reached
  have known : s.Knows r := ⟨unique, mem⟩
  refine ⟨fun ho => execLapse_none (expired_not_out known.run hp ho), fun ho hl hd => ⟨fun early => ?_, fun late => ?_⟩⟩
  · exact execLapse_none ((expired_out known.run hp ho hl hd).trans (if_neg early))
  intro x waits y z overspoilt put card lapsed gives
  have returned : ((s.line l).returnCard n seq).countLapse = y := by rw [returnCard_eq]; rfl
  have tested : (r.lapse o p l).overspoilTest = overspoilt := overspoilTest_eq _
  have run := execLapse_expired hm ((expired_out known.run hp ho hl hd).trans (if_pos late))
  have settles : gives (lapsePosition l n o seq p s) :=
    ⟨_, run, settleUnit_settles ((lapsePosition_steady l n o seq p s).quiet hq)⟩
  have books := lapsePosition_eq (l := l) (o := o) (seq := seq) (p := p) known
  have spoilt (ha : p.attempt ≠ 4) : lapsePosition l n o seq p s = closeTest n (put overspoilt (lineNotices s lapsed)) := by
    rw [books, if_neg ha, State.lapsedTold, returned, tested, if_neg ha]; rfl
  refine ⟨fun ha => spoilt ha ▸ settles, fun ha => ?_, fun ha hc => ?_⟩
  · have voided : lapsePosition l n o seq p s =
        closeTest n (advanceRun n (put overspoilt (lineNotices s (card 0x01 lapsed)))) := by
      rw [books, if_pos ha, State.lapsedTold, returned, tested, if_pos ha]; rfl
    exact voided ▸ settles
  · have told : s.lapsedTold l r o seq p = lineNotices s lapsed := by rw [State.lapsedTold, returned, if_neg ha]; rfl
    have knows : (lineNotices s lapsed).Knows z := told ▸ lapsedTold_knows known
    have unclosed : closeTest n (put overspoilt (lineNotices s lapsed)) = put overspoilt (lineNotices s lapsed) :=
      closeTest_put (r := z) (y := overspoilt) knows rfl (tested ▸ overspoilTest_not_closing (r := r.lapse o p l) hc)
    exact unclosed ▸ spoilt ha ▸ settles

end Sys2Proof.Machine
end

section
/-! Proofs. The frames of lines and of the upstream port that the Run Controller decides: outcomes and records (R57 to R59, R64 to R66,
R117, R118). -/

namespace Sys2Proof.Machine

/-! ### Outcome frames -/

theorem cardResultOf_code (res : CardResult) : cardResultOf res.code = some res := by cases res <;> rfl

theorem outcomeOf_outcome {frame : Bytes} (h1 : lengthFault frame = false) (h2 : checkFault frame = false)
    (h3 : byteAt frame 0 = 0x06) :
    outcomeOf frame =
      if (frameBody frame).length ≠ 9 then .error .length
      else (cardResultOf (byteAt (frameBody frame) 8)).elim (.error .kind) .ok := by
  simp only [outcomeOf, h1, h2, Bool.false_eq_true, if_false]
  refine (if_neg (not_not.mpr h3)).trans ?_
  split
  · rfl
  · cases cardResultOf (byteAt (frameBody frame) 8) <;> rfl

/-- A fault of an OUTCOME frame sets its flag on the line and does nothing else (R117). -/
theorem execOutcome_fault {s : State} {l : LineNo} {frame : Bytes} {f : UpFault} (hm : s.power.supply = .main)
    (hl : (s.line l).linkUp = true) (h : outcomeOf frame = .error f) :
    exec (.outcome l frame) s = .next (s.setLine l ((s.line l).flagged f)) := by
  show execOutcome l frame s = _
  simp [execOutcome, State.mainUp, hm, hl, h]

/-- A sound OUTCOME frame goes to the Run Controller, and the engine takes what it can (R118). -/
theorem execOutcome_taken {s : State} {l : LineNo} {frame : Bytes} {res : CardResult} (hm : s.power.supply = .main)
    (hl : (s.line l).linkUp = true) (h : outcomeOf frame = .ok res) (hq : s.quiet) :
    ∃ t, exec (.outcome l frame) s = .next t ∧
      SettlesTo (engineTake (takeOutcome l (wordAt (frameBody frame) 0) (wordAt (frameBody frame) 4) res s)) t := by
  refine ⟨_, ?_, settleUnit_settles ((takeOutcome_steady l _ _ res s).quiet hq)⟩
  show execOutcome l frame s = _
  simp [execOutcome, State.mainUp, hm, hl, h]

/-- Settles O47, by the checks of R117 and then by what the Run Controller knows of the card. -/
theorem outcomesAreTaken : Obligations.OutcomesAreTaken := by
  intro s l frame hm hl x body n seq e flagged gives
  have fault {f : UpFault} (h : outcomeOf frame = .error f) : exec e s = .next (s.setLine l (x.flagged f)) :=
    execOutcome_fault hm hl h
  refine ⟨fun h1 => fault (f := .length) ?_, fun h1 h2 => fault (f := .frameCheck) ?_, fun h1 h2 h3 => fault (f := .kind) ?_,
    fun h1 h2 h3 h4 => fault (f := .length) ?_, fun h1 h2 h3 h4 c1 c2 c3 => fault (f := .kind) ?_, ?_⟩
  · simp only [outcomeOf, h1, if_true]
  · simp only [outcomeOf, h1, h2, Bool.false_eq_true, if_false, if_true]
  · simp only [outcomeOf, h1, h2, Bool.false_eq_true, if_false]
    exact if_pos h3
  · exact (outcomeOf_outcome h1 h2 h3).trans (if_pos h4)
  · have unknown : cardResultOf (byteAt (frameBody frame) 8) = none := by
      simp only [cardResultOf]
      exact (if_neg c1).trans ((if_neg c2).trans (if_neg c3))
    rw [outcomeOf_outcome h1 h2 h3, if_neg (not_not.mpr h4), unknown, Option.elim_none]
  intro res h1 h2 h3 h4 h5 hq stray
  have sound : outcomeOf frame = .ok res := by
    have known : cardResultOf (byteAt (frameBody frame) 8) = some res := (congrArg _ h5).trans (cardResultOf_code res)
    rw [outcomeOf_outcome h1 h2 h3, if_neg (not_not.mpr h4), known, Option.elim_some]
  have taken {u : State} (h : takeOutcome l n seq res s = u) : gives u := h ▸ execOutcome_taken hm hl sound hq
  refine ⟨fun hr => taken (by simp only [takeOutcome, hr]; rfl), fun r hr => ?_⟩
  intro o
  refine ⟨fun hp => taken ?_, fun p hp =>
    ⟨fun out => taken ?_, fun notOut => ⟨fun eligible here => taken ?_, fun gone => taken ?_⟩⟩⟩
  · have hp' : r.position (r.offset seq) = none := hp
    simp only [takeOutcome, hr, hp']; rfl
  · have hp' : r.position (r.offset seq) = some p := hp
    simp only [takeOutcome, hr, hp', if_pos out]; rfl
  · have hp' : r.position (r.offset seq) = some p := hp
    simp only [takeOutcome, hr, hp', if_neg notOut, if_pos (And.intro eligible here)]; rfl
  · have hp' : r.position (r.offset seq) = some p := hp
    have unlate : ¬(p.lateEligible = true ∧ p.lapsedLine = some l) := fun late =>
      gone.elim (fun c => Bool.false_ne_true (c.symm.trans late.1)) fun c => c late.2
    simp only [takeOutcome, hr, hp', if_neg notOut, if_neg unlate]; rfl

/-! ### Records -/

/-- A RECORD frame that passes the checks of R124 is decided by admission, and the engine takes what it can (R57). -/
theorem execRecord_taken {s : State} {frame : Bytes} (hm : s.power.supply = .main) (hl : s.link.upLink = true)
    (room : s.link.onwardQueue.length < 8) (free : s.order.hand = none) (sound : s.upFault frame = none)
    (kind : byteAt frame 0 = 0x01) (hq : s.quiet) :
    ∃ t, exec (.record frame) s = .next t ∧ SettlesTo (engineTake (takeRecordFrame frame s)) t := by
  have ready : s.receivesUp = true := by simp [State.receivesUp, State.upstreamReady, State.mainUp, hm, hl, room, free]
  refine ⟨_, ?_, settleUnit_settles ((takeRecordFrame_steady frame s).quiet hq)⟩
  show execRecord frame s = _
  simp only [execRecord, ready, Bool.not_true, Bool.false_eq_true, if_false, sound]
  exact if_pos kind

section
variable {s : State} {frame : Bytes}

/-- A body too short for run, sequence number and field count (R57 step 2). -/
theorem admitRecord_short (h : (frameBody frame).length < 9) :
    admitRecord frame s =
      offerRefusal (if (frameBody frame).length < 4 then 0 else wordAt (frameBody frame) 0)
        (if (frameBody frame).length < 8 then 0 else wordAt (frameBody frame) 4) .malformed s :=
  if_pos h

/-- A record of a run that the table does not know (R57 step 1). -/
theorem admitRecord_unknown (h : 9 ≤ (frameBody frame).length) (hr : s.run (wordAt (frameBody frame) 0) = none) :
    admitRecord frame s =
      if s.link.chainEnd then offerRefusal (wordAt (frameBody frame) 0) (wordAt (frameBody frame) 4) .unknownRun s
      else { s with link := { s.link with onwardQueue := s.link.onwardQueue ++ [frame] } } := by
  simp only [wordAt] at hr
  simp only [admitRecord, if_neg (not_lt.mpr h), hr]; rfl

/-- A record whose fields are not well formed (R57 step 2). -/
theorem admitRecord_malformed {r : Run} (h : 9 ≤ (frameBody frame).length) (hr : s.run (wordAt (frameBody frame) 0) = some r)
    (hf : recordFields (frameBody frame) = none) :
    admitRecord frame s = offerRefusal (wordAt (frameBody frame) 0) (wordAt (frameBody frame) 4) .malformed s := by
  simp only [wordAt] at hr
  simp only [admitRecord, if_neg (not_lt.mpr h), hr, hf]; rfl

variable {r : Run} {fields : List Field} (h : 9 ≤ (frameBody frame).length) (hr : s.run (wordAt (frameBody frame) 0) = some r)
  (hf : recordFields (frameBody frame) = some fields)
include h hr hf

/-- A well-formed record that is refused (R57 steps 3 to 9, R58). -/
theorem admitRecord_refused {reason : RefusalReason} (hx : s.admissionReason r (wordAt (frameBody frame) 4) = some reason)
    (hd : reason ≠ .duplicate) :
    admitRecord frame s = offerRefusal (wordAt (frameBody frame) 0) (wordAt (frameBody frame) 4) reason s := by
  simp only [wordAt] at hr hx
  simp only [admitRecord, if_neg (not_lt.mpr h), hr, hf, hx]
  cases reason
  case duplicate => exact absurd rfl hd
  all_goals rfl

/-- A duplicate is refused and counted (R58). -/
theorem admitRecord_duplicate (hx : s.admissionReason r (wordAt (frameBody frame) 4) = some .duplicate) :
    admitRecord frame s =
      (offerRefusal (wordAt (frameBody frame) 0) (wordAt (frameBody frame) 4) .duplicate s).updateRun
        (wordAt (frameBody frame) 0) Run.countDuplicate := by
  simp only [wordAt] at hr hx
  simp only [admitRecord, if_neg (not_lt.mpr h), hr, hf, hx]; rfl

/-- A record that is admitted is staged (R59). -/
theorem admitRecord_staged (hx : s.admissionReason r (wordAt (frameBody frame) 4) = none) :
    admitRecord frame s = s.stageRecord r (wordAt (frameBody frame) 4) fields := by
  simp only [wordAt] at hr hx
  simp only [admitRecord, if_neg (not_lt.mpr h), hr, hf, hx]; rfl

end

/-- The position is staged, and the record joins the queue (R59). -/
theorem stageRecord_eq {s : State} {r : Run} {seq : Word} {fields : List Field} {p : Position} (h : s.Knows r)
    (hp : r.position (r.offset seq) = some p) :
    s.stageRecord r seq fields =
      let t := s.updateRun r.number fun x => x.setPosition (r.offset seq) (some p.stage)
      { t with runs := { t.runs with staging := s.runs.staging ++ [{ run := r.number, seq := seq, fields := fields }] } } := by
  have staged : r.mapPosition (r.offset seq) Position.stage = r.setPosition (r.offset seq) (some p.stage) := by
    simp only [Run.mapPosition, hp]
  simp only [State.stageRecord, h.update, staged, putRun_staging]

/-! ### The reasons of R57 in order -/

section
variable {s : State} {r : Run} {seq : Word}

theorem admissionReason_notLive (h : r.state ≠ .live) : s.admissionReason r seq = some .runNotLive := if_pos h

theorem admissionReason_unavailable (h : r.state = .live) (hk : s.store.custody ≠ .operational ∨ s.suspended = true) :
    s.admissionReason r seq = some .storeUnavailable :=
  (if_neg (not_not.mpr h)).trans (if_pos hk)

variable (h : r.state = .live) (hc : s.store.custody = .operational) (hs : s.suspended = false)
include h hc hs

/-- The tests of the offset, for a LIVE run and an available store (R57 steps 5 to 9). -/
theorem admissionReason_offset :
    s.admissionReason r seq =
      if r.quantity ≤ r.offset seq then some .outOfRun
      else if r.offset seq < r.low then some .settled
      else if r.low + 64 ≤ r.offset seq then some .ahead
      else (r.position (r.offset seq)).elim (some .outOfRun) fun p =>
        if p.state = .staged ∨ p.state = .out ∨ p.state = .done then some .duplicate
        else if p.state = .voided then some .voided
        else if 32 ≤ s.runs.staging.length then some .stagingFull
        else none := by
  simp only [State.admissionReason, h, hc, hs, ne_eq, not_true_eq_false, if_false, Bool.false_eq_true, or_self]
  cases r.position (r.offset seq) <;> rfl

theorem admissionReason_position {p : Position} (hp : r.position (r.offset seq) = some p) :
    s.admissionReason r seq =
      if p.state = .staged ∨ p.state = .out ∨ p.state = .done then some .duplicate
      else if p.state = .voided then some .voided
      else if 32 ≤ s.runs.staging.length then some .stagingFull
      else none := by
  obtain ⟨lower, upper, inside⟩ := (inWindow_iff _ _).mp (inWindow_of_position hp)
  rw [admissionReason_offset h hc hs, if_neg (not_le.mpr inside), if_neg (not_lt.mpr lower), if_neg (not_le.mpr upper), hp,
    Option.elim_some]

end

/-- A record that is not handed onward starts the idle timer (R187). -/
theorem takeRecordFrame_decided {s : State} {frame : Bytes}
    (h : (frameBody frame).length < 9 ∨ s.link.chainEnd = true ∨ s.run (wordAt (frameBody frame) 0) ≠ none) :
    takeRecordFrame frame s = admitRecord frame s.startIdle := by
  have kept : s.handsOnward frame = false := by
    obtain h | h | h := h
    · simp [State.handsOnward, h]
    · simp [State.handsOnward, h]
    · simp [State.handsOnward, Option.isSome_iff_ne_none.mpr h]
  simp only [takeRecordFrame, kept, Bool.false_eq_true, if_false]

theorem startIdle_run (s : State) (n : Word) : s.startIdle.run n = s.run n := by simp [State.run]

theorem startIdle_suspended (s : State) : s.startIdle.suspended = s.suspended := by simp [State.suspended]

/-- Settles O44, by the tests of R57 in order. -/
theorem recordsAreAdmitted : Obligations.RecordsAreAdmitted := by
  intro s frame hm hl room free sound kind hq unique body n seq u gives refusal
  have taken {x : State} (h : takeRecordFrame frame s = x) : gives x := h ▸ execRecord_taken hm hl room free sound kind hq
  refine ⟨fun short => taken ?_, fun long hr => ⟨fun last => taken ?_, fun inner => taken ?_⟩, fun r long hr => ?_⟩
  · rw [takeRecordFrame_decided (.inl short), admitRecord_short short]; rfl
  · rw [takeRecordFrame_decided (.inr (.inl last)), admitRecord_unknown long ((startIdle_run s n).trans hr), startIdle_link,
      if_pos last]; rfl
  · have onward : s.handsOnward frame = true := by
      have hr' : s.run (wordAt (frameBody frame) 0) = none := hr
      simp [State.handsOnward, inner, hr', show 9 ≤ (frameBody frame).length from long]
    simp only [takeRecordFrame, onward, if_true]
    exact (admitRecord_unknown long hr).trans (if_neg (by simp [inner]))
  intro o
  have hu : u.run n = some r := (startIdle_run s n).trans hr
  have decided : takeRecordFrame frame s = admitRecord frame u :=
    takeRecordFrame_decided (.inr (.inr (by rw [show s.run (wordAt (frameBody frame) 0) = some r from hr]; simp)))
  refine ⟨fun bad => taken (decided.trans (admitRecord_malformed long hu bad)), fun fields hf => ?_⟩
  have refused (reason : RefusalReason) (hx : u.admissionReason r seq = some reason) (hd : reason ≠ .duplicate) :
      gives (refusal reason.code) := taken (decided.trans (admitRecord_refused long hu hf hx hd))
  refine ⟨fun dead => refused .runNotLive (admissionReason_notLive dead) (by simp), fun live =>
    ⟨fun closed => ?_, fun hc hs => ?_⟩⟩
  · refine refused .storeUnavailable (admissionReason_unavailable live ?_) (by simp)
    rwa [startIdle_store, startIdle_suspended]
  have hc' : u.store.custody = .operational := (congrArg _ (startIdle_store s)).trans hc
  have hs' : u.suspended = false := (startIdle_suspended s).trans hs
  have tests := admissionReason_offset (seq := seq) live hc' hs'
  refine ⟨fun beyond => ?_, fun inside below => ?_, fun inside ahead => ?_, fun p hp => ?_⟩
  · exact refused .outOfRun (tests.trans (if_pos beyond)) (by simp)
  · exact refused .settled (tests.trans ((if_neg (not_le.mpr inside)).trans (if_pos below))) (by simp)
  · have above : ¬ r.offset seq < r.low := by
      have ahead' : r.low + 64 ≤ r.offset seq := ahead
      omega
    exact refused .ahead (tests.trans ((if_neg (not_le.mpr inside)).trans ((if_neg above).trans (if_pos ahead)))) (by simp)
  have at_position := admissionReason_position (seq := seq) live hc' hs' hp
  have staging : u.runs.staging = s.runs.staging := by simp [u]
  rw [staging] at at_position
  refine ⟨fun twice => ?_, fun void => refused .voided (at_position.trans ?_) (by simp), fun fresh => ?_⟩
  · exact taken (decided.trans (admitRecord_duplicate long hu hf (at_position.trans (if_pos twice))))
  · simp [void]
  have unseen : ¬(p.state = .staged ∨ p.state = .out ∨ p.state = .done) := by obtain e | e := fresh <;> simp [e]
  have unvoided : p.state ≠ .voided := by obtain e | e := fresh <;> simp [e]
  rw [if_neg unseen, if_neg unvoided] at at_position
  refine ⟨fun full => refused .stagingFull (at_position.trans (if_pos full)) (by simp), fun space => ?_⟩
  intro x
  refine taken (decided.trans ((admitRecord_staged long hu hf (at_position.trans (if_neg (not_le.mpr space)))).trans ?_))
  obtain ⟨mem, number⟩ := run_mem hr
  have known : u.Knows r := State.Knows.of_runs ⟨unique, mem⟩ (startIdle_runs s)
  rw [stageRecord_eq known hp, number, staging]; rfl

end Sys2Proof.Machine
end

section
/-! Proofs. A record leaves the engine: it completes or it fails (R62, R63, R72, R93, R95, R115). -/

namespace Sys2Proof.Machine

theorem State.Knows.update_of {s : State} {r : Run} {n : Word} (h : s.Knows r) (e : r.number = n) (f : Run → Run) :
    s.updateRun n f = s.putRun n (f r) := e ▸ h.update f

/-- The run of a card that goes out (R62). -/
theorem goOut_staged {r : Run} {o : Nat} {p : Position} {l : LineNo} {now : Word} (hp : r.position o = some p)
    (hs : p.state = .staged) :
    r.goOut o l now =
      { r.setPosition o (some (p.goOut l now)) with
        issues := if p.attempt = 0 then r.issues + 1 else r.issues
        reissues := if p.attempt = 0 then r.reissues else r.reissues + 1 } := by
  simp only [Run.goOut, hp, hs, if_true]

/-- A run with a card just gone out is not ready to close (R72). -/
theorem goOut_canClose {r : Run} {o : Nat} {p : Position} {l : LineNo} {now : Word} (hp : r.position o = some p)
    (hs : p.state = .staged) : (r.goOut o l now).canClose = false := by
  have count := countOut_setPosition (q := p.goOut l now) hp
  have some_out : (r.goOut o l now).countState .out ≠ 0 := by
    rw [goOut_staged hp hs]
    show (r.setPosition o (some (p.goOut l now))).countState .out ≠ 0
    simp only [hs, Position.goOut, if_true, reduceCtorEq, if_false] at count
    simp only [Position.goOut]
    omega
  simp [Run.canClose, some_out]

/-- A record completes, and no closing follows, since its card is OUT (R62, R93, R115). -/
theorem completeRecord_eq {s : State} {w : Work} {r : Run} {p : Position} (h : s.Knows r) (e : r.number = w.run)
    (hp : r.position (r.offset w.seq) = some p) (hs : p.state = .staged) :
    completeRecord w s =
      (({ s with engine := none } : State).setLine w.line { s.line w.line with
        transmit := (s.line w.line).transmit ++ [{ run := w.run, seq := w.seq, frame := s.cardFrame w }] }).putRun w.run
          (r.goOut (r.offset w.seq) w.line s.time.millis) := by
  have line := h.of_runs (t := ({ s with engine := none } : State).setLine w.line { s.line w.line with
    transmit := (s.line w.line).transmit ++ [{ run := w.run, seq := w.seq, frame := s.cardFrame w }] }) rfl
  have number : (r.goOut (r.offset w.seq) w.line s.time.millis).number = r.number := by rw [goOut_staged hp hs]; rfl
  have put := line.put number
  have tested := closeTest_eq put.unique put.mem
  rw [goOut_canClose hp hs, number, e] at tested
  simp only [completeRecord, line.update_of e]
  exact tested.trans (if_neg Bool.false_ne_true)

/-- A record fails: its position and its credit return, and a closing run is tested after the notice (R63, R72, R95). -/
theorem failRecord_eq {s : State} {w : Work} {reason : FailReason} {r : Run} {p : Position} (h : s.Knows r)
    (e : r.number = w.run) (hp : r.position (r.offset w.seq) = some p) :
    failRecord w reason s =
      closeTest w.run (offerFailure w reason
        ((({ s with engine := none } : State).setLine w.line { s.line w.line with
          occupied := (s.line w.line).occupied - 1 }).putRun w.run (r.setPosition (r.offset w.seq) (some p.unstage)))) := by
  have line := h.of_runs (t := ({ s with engine := none } : State).setLine w.line { s.line w.line with
    occupied := (s.line w.line).occupied - 1 }) rfl
  have unstaged : r.mapPosition (r.offset w.seq) Position.unstage = r.setPosition (r.offset w.seq) (some p.unstage) := by
    simp only [Run.mapPosition, hp]
  simp only [failRecord, line.update_of e, unstaged]

/-- No closing follows the failure of a record whose run is not CLOSING (R95). -/
theorem failRecord_open {s : State} {w : Work} {reason : FailReason} {r : Run} {p : Position} (h : s.Knows r)
    (e : r.number = w.run) (hp : r.position (r.offset w.seq) = some p) (hc : r.state ≠ .closing) :
    failRecord w reason s =
      offerFailure w reason
        ((({ s with engine := none } : State).setLine w.line { s.line w.line with
          occupied := (s.line w.line).occupied - 1 }).putRun w.run (r.setPosition (r.offset w.seq) (some p.unstage))) := by
  have line := h.of_runs (t := ({ s with engine := none } : State).setLine w.line { s.line w.line with
    occupied := (s.line w.line).occupied - 1 }) rfl
  have put := line.put (y := r.setPosition (r.offset w.seq) (some p.unstage)) rfl
  rw [e] at put
  have unclosed := closeTest_other (put.of_runs (t := offerFailure w reason _) (offer_only _ _ _ _).runs) hc
  rw [show (r.setPosition (r.offset w.seq) (some p.unstage)).number = w.run from e] at unclosed
  rw [failRecord_eq h e hp, unclosed]

theorem unstage_staged {p : Position} (h : p.state = .staged) :
    p.unstage = { p with state := if p.prior = some .spoiled then .spoiled else .opened, prior := none } := if_pos h

/-- Settles O54, by the two ways out of the engine. -/
theorem recordLeavesTheEngine : Obligations.RecordLeavesTheEngine := by
  refine ⟨fun s w r p unique mem e hp hs => ?_, fun s w reason r p unique mem e hp hs hc => ?_,
    fun s w reason r p unique mem e hp hs hc => ?_⟩
  · rw [completeRecord_eq ⟨unique, mem⟩ e hp hs, goOut_staged hp hs]; rfl
  · rw [failRecord_open ⟨unique, mem⟩ e hp hc, unstage_staged hs]; rfl
  · rw [failRecord_eq ⟨unique, mem⟩ e hp, unstage_staged hs]; rfl

end Sys2Proof.Machine
end

section
/-! Proofs. OPEN RUN and the orders that control a run (R47 to R51, R53). -/

namespace Sys2Proof.Machine

/-! ### An order that checks and then acts -/

section
variable {i : Instr} {rule : OrderRule} {h : OrderInHand} {s : State} {α : Type} {e : Except OrderResult α} {k : α → Taken}

/-- An accepted order that its own checks refuse (R140, R152). -/
theorem checks_refuse {r : OrderResult} (hi : orderRule i = some rule) (hc : rule.cls ≠ .grant) (a : Accepting rule h s)
    (ht : rule.take { number := h.number, custodian := s.order.gate.custodian, params := h.params } (acceptedState h s) =
      checked e (acceptedState h s) k) (hx : e = .error r) :
    ∃ t, exec i s = .next t ∧ AnswersWith h r [] (acceptedState h s) t :=
  accepted_refused hi hc a (ht.trans (by rw [hx, checked_error]))

/-- An accepted order that passes its own checks (R140, R151). -/
theorem checks_pass {x : α} {r : OrderResult} {v : Bytes} {w : State} (hi : orderRule i = some rule) (hc : rule.cls ≠ .grant)
    (a : Accepting rule h s)
    (ht : rule.take { number := h.number, custodian := s.order.gate.custodian, params := h.params } (acceptedState h s) =
      checked e (acceptedState h s) k) (hx : e = .ok x) (hk : k x = .answered r v w)
    (hq : w.core.queue = (acceptedState h s).core.queue) :
    ∃ t, exec i s = .next t ∧ AnswersWith h r v w t :=
  accepted_row hi a hc (quietQueue_of_queue (acceptedState_quiet a) hq) (ht.trans (by rw [hx, checked_ok, hk]))

end

@[simp] theorem acceptedState_run (h : OrderInHand) (s : State) (n : Word) : (acceptedState h s).run n = s.run n := by
  simp [State.run]

@[simp] theorem acceptedState_recipe (h : OrderInHand) (s : State) (n : RecipeNo) :
    (acceptedState h s).recipe n = s.recipe n := by
  simp [State.recipe]

/-! ### OPEN RUN -/

theorem numAt_one (ps : Bytes) (i : Nat) : numAt ps i 1 = (byteAt ps i).toNat := by
  simp only [numAt, sliceBytes, byteAt]
  cases hd : ps.drop i with
  | nil =>
    have short : ps.length ≤ i := List.drop_eq_nil_iff.mp hd
    rw [List.getD_eq_default _ _ short]; rfl
  | cons b rest =>
    have at_i : ps.getD i 0 = b := by
      rw [List.getD_eq_getElem?_getD, ← List.head?_drop, hd]; rfl
    rw [at_i]
    simp [natOfBytes]

section
variable {s : State} {ps : Bytes}

theorem checkOpenRun_exists (h : s.run (wordAt ps 0) ≠ none) : checkOpenRun ps s = .error .exists := by
  have known : (s.run (wordAt ps 0)).isNone = false :=
    Option.isNone_eq_false_iff.mpr (Option.isSome_iff_ne_none.mpr h)
  simp only [checkOpenRun, known, need_false, error_bind]

theorem checkOpenRun_full (h : s.run (wordAt ps 0) = none) (full : 16 ≤ s.runs.table.length) :
    checkOpenRun ps s = .error .noSuch := by
  simp only [checkOpenRun, h, Option.isNone_none, need_true, ok_bind, decide_eq_false (not_lt.mpr full), need_false, error_bind]

/-- A slot that is not EMPTY may be named (R47 step 4). -/
theorem filledSlotOf_eq {b : Byte} {n : SlotNo} (hb : b.toNat = n.val) (h : (s.slot n).state ≠ .empty) :
    s.filledSlotOf b = .ok n := by
  simp only [State.filledSlotOf, slotOf_eq hb, ok_bind, decide_eq_true h, need_true, pure_ok]

/-- A prep slot, or none, is read as it was written (R47 step 4, 12.2). -/
theorem prepSlotOf_keySlotByte {prep : Option SlotNo} (h : ∀ n, prep = some n → (s.slot n).state ≠ .empty) :
    s.prepSlotOf (keySlotByte prep) = .ok prep := by
  cases prep with
  | none => rfl
  | some n =>
    have value : (byteOf n.val).toNat = n.val := by simp [byteOf]; omega
    have named : byteOf n.val ≠ 0xFF := fun e => by
      have := congrArg BitVec.toNat e
      rw [value] at this
      simp at this
      omega
    simp only [State.prepSlotOf, keySlotByte, if_neg named, filledSlotOf_eq value (h n rfl)]
    rfl

theorem prepClass_of {prep : Option SlotNo} (h : ∀ n, prep = some n → (s.slot n).cls = some .prep) : s.prepClass prep = true := by
  cases prep with
  | none => rfl
  | some n => simp [State.prepClass, h n rfl]

/-- A recipe has a prep slot exactly when it rewraps (R47 step 7). -/
theorem prep_matches {prep : Option SlotNo} {actions : List Action} (h : prep ≠ none ↔ ∃ a ∈ actions, a.kind = .rewrap) :
    (prep.isSome == hasRewrap actions) = true := by
  rw [beq_iff_eq, Bool.eq_iff_iff, Option.isSome_iff_ne_none, h]
  simp [hasRewrap]

/-- OPEN RUN's checks pass (R47). -/
theorem checkOpenRun_passes {rcp : RecipeNo} {actions : List Action} {master : SlotNo} {prep : Option SlotNo} {group : GroupNo}
    (fresh : s.run (wordAt ps 0) = none) (room : s.runs.table.length < 16) (hrcp : (byteAt ps 21).toNat = rcp.val)
    (defined : s.recipe rcp = some actions) (hmaster : (byteAt ps 19).toNat = master.val)
    (filled : (s.slot master).state ≠ .empty) (cls : (s.slot master).cls = some .master) (hprep : byteAt ps 20 = keySlotByte prep)
    (preps : ∀ n, prep = some n → (s.slot n).state ≠ .empty ∧ (s.slot n).cls = some .prep)
    (rewraps : prep ≠ none ↔ ∃ a ∈ actions, a.kind = .rewrap) (hgroup : (byteAt ps 22).toNat = group.val)
    (hq : 1 ≤ numAt ps 8 4) (hq' : numAt ps 8 4 ≤ 2000000) :
    checkOpenRun ps s = .ok { recipe := rcp, master := master, prep := prep, group := group } := by
  have recipe : s.definedRecipe rcp = .ok actions := by simp only [State.definedRecipe, defined]
  have prepared := prepSlotOf_keySlotByte fun n e => (preps n e).1
  have classes := prepClass_of fun n e => (preps n e).2
  simp only [checkOpenRun, fresh, Option.isNone_none, need_true, ok_bind, decide_eq_true room, recipeOf_eq hrcp, recipe,
    filledSlotOf_eq hmaster filled, hprep, prepared, decide_eq_true hq, decide_eq_true hq', Bool.and_self, groupOf_eq hgroup,
    decide_eq_true cls, classes, prep_matches rewraps, pure_ok]

end

theorem openClamped_iff (p t n : Nat) :
    openClamped p t n = true ↔ 250 < p ∨ (t ≠ 0 ∧ (t < 1000 ∨ 600000 < t)) ∨ n = 0 := by
  simp only [openClamped, Bool.or_eq_true, Bool.and_eq_true, decide_eq_true_eq, or_assoc]

/-- Settles O34, by the checks in order. -/
theorem openRunCreatesRun : Obligations.OpenRunCreatesRun := by
  intro s h a u p timeout postscaler q
  refine ⟨fun known => ?_, fun fresh full => ?_, ?_⟩
  · exact checks_refuse rfl (by decide) a rfl (checkOpenRun_exists (by rwa [acceptedState_run]))
  · exact checks_refuse rfl (by decide) a rfl (checkOpenRun_full (by rwa [acceptedState_run]) (by rwa [acceptedState_runs]))
  intro rcp actions master prep group fresh room hrcp defined hmaster filled cls hprep preps rewraps hgroup hq hq' moved r
  have passes : checkOpenRun h.params u = .ok { recipe := rcp, master := master, prep := prep, group := group } :=
    checkOpenRun_passes (by rwa [acceptedState_run]) (by rwa [acceptedState_runs]) hrcp (by rwa [acceptedState_recipe]) hmaster
      (by rwa [acceptedState_slot]) (by rwa [acceptedState_slot]) hprep
      (fun n e => by rw [acceptedState_slot]; exact preps n e) rewraps hgroup hq hq'
  have record : openedRun h.params { recipe := rcp, master := master, prep := prep, group := group } = r := by
    simp only [openedRun, numAt_one]; rfl
  have clamped : openClamped (numAt h.params 12 2) (numAt h.params 14 4) (numAt h.params 18 1) = true ↔ moved := by
    rw [openClamped_iff, numAt_one]
  refine checks_pass rfl (by decide) a rfl passes ?_ rfl
  show Taken.answered (if openClamped _ _ _ = true then _ else _) _ _ = _
  rw [record]
  exact congrArg (fun res => Taken.answered res _ _) (if_congr clamped rfl rfl)

/-! ### RELEASE RUN, HOLD RUN, ADD ALLOWANCE -/

theorem HoldCauses.isEmpty_iff (x : HoldCauses) : x.isEmpty = true ↔ x = ⟨false, false, false⟩ := by
  obtain ⟨order, overspoil, key⟩ := x
  simp [HoldCauses.isEmpty, and_assoc]

section
variable {s : State} {n : Word} {r : Run}

theorem knownRun_eq (h : s.run n = some r) : s.knownRun n = .ok r := by simp only [State.knownRun, h]

theorem openedRunOf_closed (h : s.run n = some r) (hc : r.state = .closing ∨ r.state = .closed) :
    s.openedRunOf n = .error .notPermitted := by
  obtain hc | hc := hc <;> simp [State.openedRunOf, knownRun_eq h, hc]

theorem openedRunOf_open (h : s.run n = some r) (hc : r.state ≠ .closing) (hc' : r.state ≠ .closed) : s.openedRunOf n = .ok r := by
  simp [State.openedRunOf, knownRun_eq h, hc, hc']

end

theorem putRun_self {s : State} {r : Run} (h : s.Knows r) : s.putRun r.number r = s := by
  have table : (s.runs.table.map fun z => if z.number = r.number then r else z) = s.runs.table := by
    refine (List.map_congr_left fun z hz => ?_).trans (List.map_id _)
    split
    · next e => exact (List.inj_on_of_nodup_map h.unique hz h.mem e).symm
    · rfl
  simp only [State.putRun, table]

theorem runStanding_put {s : State} {r y : Run} (h : s.Knows r) (e : y.number = r.number) :
    (s.putRun r.number y).runStanding r.number = [y.state.code, y.holds.byte] := by
  have known := (h.put e).run
  rw [e] at known
  simp only [State.runStanding, known]

/-- RELEASE RUN on a DEFINED run: it is held by KEY alone, or LIVE (R50). -/
theorem release_defined {r : Run} {usable : Bool} (h : r.state = .defined) :
    r.release usable =
      let holds := { r.holds with key := !usable }
      { r with holds := holds, state := if holds = ⟨false, false, false⟩ then .live else .held } := by
  simp only [Run.release, h, HoldCauses.isEmpty_iff]

/-- RELEASE RUN on a HELD run takes ORDER away, and KEY when its keys are usable (R50). -/
theorem release_held {r : Run} {usable : Bool} (h : r.state = .held) :
    r.release usable =
      let holds := { r.holds with order := false, key := r.holds.key && !usable }
      { r with holds := holds, state := if holds = ⟨false, false, false⟩ then .live else .held } := by
  simp only [Run.release, h, Run.dropCauses, HoldCauses.isEmpty_iff, true_and]

theorem release_live {r : Run} {usable : Bool} (h : r.state = .live) : r.release usable = r := by
  simp only [Run.release, h]

@[simp] theorem release_number (usable : Bool) (r : Run) : (r.release usable).number = r.number := by
  unfold Run.release
  split <;> rfl

/-- ADD ALLOWANCE raises the allowance to Q at most and takes OVERSPOIL away when the spoils lie within it (R53). -/
theorem raiseAllowance_eq (r : Run) (extra : Nat) :
    r.raiseAllowance extra =
      let allowed := min (r.allowance + extra) r.quantity
      let holds := if r.spoiled ≤ allowed then { r.holds with overspoil := false } else r.holds
      { r with
        allowance := allowed
        holds := holds
        state := if r.state = .held ∧ holds = ⟨false, false, false⟩ ∧ r.spoiled ≤ allowed then .live else r.state } := by
  by_cases within : r.spoiled ≤ min (r.allowance + extra) r.quantity
  · simp only [Run.raiseAllowance, Run.dropCauses, HoldCauses.isEmpty_iff, within, and_true, if_true]
  · simp only [Run.raiseAllowance, within, and_false, if_false]

section
variable {a : OrderArgs} {s : State} {r : Run} (known : s.Knows r) (number : r.number = wordAt a.params 0)
include known number

theorem run_of_number : s.run (wordAt a.params 0) = some r := number ▸ known.run

theorem takeReleaseRun_closed (h : r.state = .closing ∨ r.state = .closed) :
    takeReleaseRun a s = .answered .notPermitted [] s := by
  simp only [takeReleaseRun, openedRunOf_closed (run_of_number known number) h, checked_error]

theorem takeReleaseRun_open {x : Run} (h : r.state ≠ .closing) (h' : r.state ≠ .closed) (hx : r.release (s.keysUsable r) = x) :
    takeReleaseRun a s = .answered .done [x.state.code, x.holds.byte] (engineTake (s.putRun r.number x)) := by
  have standing := runStanding_put known (hx ▸ release_number _ _)
  simp only [takeReleaseRun, openedRunOf_open known.run h h', checked_ok, ← number, known.update, hx, standing]

theorem takeHoldRun_closed (h : r.state = .closing ∨ r.state = .closed) : takeHoldRun a s = .answered .notPermitted [] s := by
  simp only [takeHoldRun, openedRunOf_closed (run_of_number known number) h, checked_error]

theorem takeHoldRun_open (h : r.state ≠ .closing) (h' : r.state ≠ .closed) :
    takeHoldRun a s = .answered .done [] (s.putRun r.number r.hold) := by
  simp only [takeHoldRun, openedRunOf_open known.run h h', checked_ok, ← number, known.update]

theorem takeAddAllowance_closed (h : r.state = .closed) : takeAddAllowance a s = .answered .notPermitted [] s := by
  simp [takeAddAllowance, knownRun_eq (run_of_number known number), h]

theorem takeAddAllowance_zero (h : r.state ≠ .closed) (h0 : numAt a.params 4 2 = 0) :
    takeAddAllowance a s = .answered .range [] s := by
  simp [takeAddAllowance, knownRun_eq (run_of_number known number), h, h0]

theorem takeAddAllowance_adds (h : r.state ≠ .closed) (h0 : numAt a.params 4 2 ≠ 0) :
    takeAddAllowance a s =
      .answered (if r.quantity < r.allowance + numAt a.params 4 2 then .clamped else .done)
        (be32 (min (r.allowance + numAt a.params 4 2) r.quantity))
        (engineTake (s.putRun r.number (r.raiseAllowance (numAt a.params 4 2)))) := by
  simp [takeAddAllowance, knownRun_eq known.run, h, h0, ← number, known.update]

end

theorem acceptedState_knows {s : State} {r : Run} (h : s.Knows r) (o : OrderInHand) : (acceptedState o s).Knows r :=
  h.of_runs (acceptedState_runs o s)

theorem acceptedState_keysUsable (h : OrderInHand) (s : State) (r : Run) :
    (acceptedState h s).keysUsable r = s.keysUsable r := by
  simp [State.keysUsable, State.runRewraps]

/-- Settles O35, by the states of the run. -/
theorem runControlOrders : Obligations.RunControlOrders := by
  intro s h r unique mem number u becomes answers
  have known : u.Knows r := acceptedState_knows ⟨unique, mem⟩ h
  have tidy {rule : OrderRule} (a : Accepting rule h s) {w : State} (e : w.core.queue = u.core.queue) : w.quietQueue :=
    quietQueue_of_queue (acceptedState_quiet a) e
  refine ⟨fun a => ?_, fun a => ?_, fun a => ?_⟩
  · have released (hc : r.state ≠ .closing) (hc' : r.state ≠ .closed) (x : Run) (hx : r.release (s.keysUsable r) = x) :
        answers .releaseRun .done [x.state.code, x.holds.byte] (engineTake (becomes x)) :=
      accepted_row rfl a (by decide) (tidy a (engineTake_apart _).queue)
        (takeReleaseRun_open known number hc hc' ((congrArg (r.release ·) (acceptedState_keysUsable h s r)).trans hx))
    refine ⟨fun hc => accepted_refused rfl (by decide) a (takeReleaseRun_closed known number hc), fun hd => ?_, fun hh => ?_,
      fun hl => ?_⟩
    · exact released (by simp [hd]) (by simp [hd]) _ (release_defined hd)
    · exact released (by simp [hh]) (by simp [hh]) _ (release_held hh)
    · have kept := released (by simp [hl]) (by simp [hl]) _ (release_live hl)
      rwa [show becomes r = u from putRun_self known] at kept
  · refine ⟨fun hc => accepted_refused rfl (by decide) a (takeHoldRun_closed known number hc), fun ho => ?_⟩
    have unclosed : r.state ≠ .closing ∧ r.state ≠ .closed := by obtain e | e | e := ho <;> simp [e]
    exact accepted_row rfl a (by decide) (tidy a rfl) (takeHoldRun_open known number unclosed.1 unclosed.2)
  · intro extra allowed
    refine ⟨fun hc => accepted_refused rfl (by decide) a (takeAddAllowance_closed known number hc),
      fun hc h0 => accepted_refused rfl (by decide) a (takeAddAllowance_zero known number hc h0), fun hc h0 => ?_⟩
    intro holds x
    have raised : r.raiseAllowance extra = x := raiseAllowance_eq r extra
    rw [← raised]
    exact accepted_row rfl a (by decide) (tidy a (engineTake_apart _).queue) (takeAddAllowance_adds known number hc h0)

end Sys2Proof.Machine
end

section
/-! Proofs. The orders that end a run, the closing test and completion (R61, R70 to R74). -/

namespace Sys2Proof.Machine

/-! ### CLOSE RUN -/

section
variable {a : OrderArgs} {s : State} {r : Run} (known : s.Knows r) (number : r.number = wordAt a.params 0)
include known number

theorem takeCloseRun_closed (h : r.state = .closed) : takeCloseRun a s = .answered .notPermitted [] s := by
  simp [takeCloseRun, knownRun_eq (run_of_number known number), h]

theorem takeCloseRun_closing (h : r.state = .closing) : takeCloseRun a s = .answered .done [] s := by
  simp [takeCloseRun, knownRun_eq (run_of_number known number), h]

/-- The unit with a run made CLOSING and its records withdrawn, a REFUSAL notice offered for each (R61, R71). -/
def State.withdrawnFrom (s : State) (r : Run) : State :=
  let mine := s.runs.staging.filter fun x => decide (x.run = r.number)
  refuseAll r.number mine
    { s with
      runs :=
        { table := s.runs.table.map fun y =>
            if y.number = r.number then ({ r with state := .closing } : Run).withdrawn mine else y
          staging := s.runs.staging.filter fun x => decide (x.run ≠ r.number) } }

omit number in
/-- The withdrawal of the records of a run just made CLOSING. -/
theorem withdrawRun_closing : withdrawRun r.number (s.putRun r.number { r with state := .closing }) = s.withdrawnFrom r := by
  have closing : (s.putRun r.number { r with state := .closing }).Knows { r with state := .closing } := known.put rfl
  have mine : (fun x : StagedRecord => x.run == r.number) = fun x => decide (x.run = r.number) := rfl
  have others : (fun x : StagedRecord => !(x.run == r.number)) = fun x => decide (x.run ≠ r.number) := by
    exact funext fun _ => decide_not.symm
  refine (withdrawRun_eq closing.unique closing.mem).trans (congrArg (refuseAll _ _) ?_)
  refine (putRun_again (s := { s with runs := { s.runs with staging := s.runs.staging.filter fun x => !(x.run == r.number) } })
    (y := { r with state := .closing }) _ rfl rfl).trans ?_
  rw [State.putRun, mine, others]; rfl

/-- A run that is neither becomes CLOSING; its staged records are withdrawn and the closing test is made (R71). -/
theorem takeCloseRun_open (h : r.state ≠ .closed) (h' : r.state ≠ .closing) :
    takeCloseRun a s = .answered .done [] (closeTest r.number (s.withdrawnFrom r)) := by
  rw [← withdrawRun_closing known]
  simp [takeCloseRun, knownRun_eq known.run, h, h', ← number, known.update]

end

theorem withdrawnFrom_queue (s : State) (r : Run) : (s.withdrawnFrom r).core.queue = s.core.queue := by
  simp only [State.withdrawnFrom, refuseAll_core]

/-- What CLOSE RUN does to the positions: those of the withdrawn records return to their prior states (R61). -/
theorem closing_withdrawn_position (r : Run) (xs : List StagedRecord) (o : Nat) :
    (({ r with state := .closing } : Run).withdrawn xs).position o =
      (r.position o).map fun p =>
        if (∃ x ∈ xs, (x.seq - r.first).toNat = o) ∧ p.state = .staged then
          { p with state := if p.prior = some .spoiled then .spoiled else .opened, prior := none }
        else p := by
  refine (withdrawn_position _ xs o).trans (congrArg (fun f => Option.map f (r.position o)) (funext fun p => ?_))
  show (if ∃ x ∈ xs, (x.seq - r.first).toNat = o then p.unstage else p) = _
  by_cases h : ∃ x ∈ xs, (x.seq - r.first).toNat = o
  · by_cases staged : p.state = .staged
    · rw [if_pos h, if_pos ⟨h, staged⟩, unstage_staged staged]
    · rw [if_pos h, if_neg fun c => staged c.2, Position.unstage, if_neg staged]
  · rw [if_neg h, if_neg fun c => h c.1]

/-! ### The closing test and completion -/

theorem canClose_iff (r : Run) :
    r.canClose = true ↔ r.state = .closing ∧ r.countState .out = 0 ∧ r.countState .staged = 0 := by
  simp [Run.canClose, and_assoc]

/-! ### WRITE OFF CARD and DELETE RUN -/

section
variable {ps : Bytes} {s : State} {r : Run} (found : s.run (wordAt ps 0) = some r)
include found

theorem checkWriteOff_closed (h : r.state = .closed) : checkWriteOff ps s = .error .notPermitted := by
  simp [checkWriteOff, knownRun_eq found, h]

variable (hc : r.state ≠ .closed)
include hc

theorem checkWriteOff_beyond (h : r.quantity ≤ r.offset (wordAt ps 4) ∨ r.low + 64 ≤ r.offset (wordAt ps 4)) :
    checkWriteOff ps s = .error .range := by
  have outside : (decide (r.offset (wordAt ps 4) < r.quantity) && decide (r.offset (wordAt ps 4) < r.low + 64)) = false := by
    rw [Bool.and_eq_false_iff, decide_eq_false_iff_not, decide_eq_false_iff_not, not_lt, not_lt]; exact h
  simp [checkWriteOff, knownRun_eq found, hc, outside]

theorem checkWriteOff_below (h : r.offset (wordAt ps 4) < r.quantity) (h' : r.offset (wordAt ps 4) < r.low) :
    checkWriteOff ps s = .error .notPermitted := by
  have inside : r.offset (wordAt ps 4) < r.low + 64 := by omega
  simp [checkWriteOff, knownRun_eq found, hc, h, inside, not_le.mpr h']

/-- A position of the window is judged by its state (R73). -/
theorem checkWriteOff_position {p : Position} (hp : r.position (r.offset (wordAt ps 4)) = some p) :
    checkWriteOff ps s =
      (need (!p.settled) .notPermitted >>= fun _ =>
        need (decide (p.state ≠ .staged) && decide (p.state ≠ .out)) .inUse >>= fun _ => .ok (r, p)) := by
  obtain ⟨lower, upper, inside⟩ := (inWindow_iff _ _).mp (inWindow_of_position hp)
  simp only [checkWriteOff, knownRun_eq found, ok_bind, decide_eq_true hc, need_true, decide_eq_true inside, decide_eq_true upper,
    Bool.and_self, decide_eq_true lower, hp, pure_ok]

end

theorem filter_others (xs : List Run) (n : Word) :
    (xs.filter fun r => !(r.number == n)) = xs.filter fun x => decide (x.number ≠ n) :=
  congrArg (fun f => xs.filter f) (funext fun _ => decide_not.symm)

section
variable {a : OrderArgs} {s : State} {r : Run} (found : s.run (wordAt a.params 0) = some r)
include found

theorem takeDeleteRun_open (h : r.state ≠ .closed) : takeDeleteRun a s = .answered .notPermitted [] s := by
  simp [takeDeleteRun, knownRun_eq found, h]

theorem takeDeleteRun_closed (h : r.state = .closed) :
    takeDeleteRun a s =
      .answered .done []
        { s with runs := { s.runs with table := s.runs.table.filter fun r => !(r.number == wordAt a.params 0) } } := by
  simp [takeDeleteRun, knownRun_eq found, h]

end

/-- Settles O36: CLOSE RUN by the run's state, the closing test and completion by their equations, and the two orders on single cards
and closed runs by their checks. -/
theorem runEndingOrders : Obligations.RunEndingOrders := by
  refine ⟨?_, ?_, ?_⟩
  · intro s h r unique mem number a n u answers
    have known : u.Knows r := acceptedState_knows ⟨unique, mem⟩ h
    refine ⟨fun hc => accepted_refused rfl (by decide) a (takeCloseRun_closed known number hc),
      fun hc => accepted_row rfl a (by decide) (acceptedState_quiet a) (takeCloseRun_closing known number hc), fun hc hc' => ?_⟩
    intro mine
    have staging : u.runs.staging = s.runs.staging := congrArg _ (acceptedState_runs h s)
    refine ⟨({ r with state := .closing } : Run).withdrawn mine, withdrawn_only _ _, closing_withdrawn_position r mine, ?_⟩
    have queue := (closeTest_apart r.number _).queue.trans (withdrawnFrom_queue u r)
    have row := accepted_row (i := .closeRun) rfl a (by decide) (quietQueue_of_queue (acceptedState_quiet a) queue)
      (takeCloseRun_open known number hc hc')
    rw [State.withdrawnFrom, staging] at row
    rw [staging]
    exact row
  · intro s r unique mem n becomes count tells
    have tested := closeTest_eq unique mem
    have moved := advanceRun_eq unique mem
    refine ⟨fun h => ?_, fun h1 h2 h3 => ?_, fun h => ?_, fun h1 h2 => ?_⟩
    · refine tested.trans (if_neg fun c => ?_)
      obtain ⟨closing, out, staged⟩ := (canClose_iff r).mp c
      rw [countState_eq] at out staged
      obtain h | h | h := h
      · exact h closing
      · exact absurd out (Nat.pos_iff_ne_zero.mp h)
      · exact absurd staged (Nat.pos_iff_ne_zero.mp h)
    · intro a
      have able : r.canClose = true := (canClose_iff r).mpr ⟨h1, (countState_eq r _).trans h2, (countState_eq r _).trans h3⟩
      have voided : r.voidSpoiled.advance = a := by rw [Run.voidSpoiled, countState_eq]
      have closed : r.close = { a with state := .closed, unissued := some (count a .opened + (a.quantity - (a.low + 64))) } := by
        rw [Run.close, voided, Run.neverIssued, countState_eq]
      have number : r.close.number = n := close_number r
      rw [tested, if_pos able, offerRun, number, closed]; rfl
    · exact moved.trans (if_neg fun c => h.elim (fun e => e c.1) fun e => c.2 e)
    · have number : r.advance.completed.number = n := advance_number r
      rw [moved, if_pos ⟨h1, h2⟩, offerRun, number]; rfl
  · intro s h r found n u answers
    have found' : u.run n = some r := (acceptedState_run h s n).trans found
    refine ⟨fun a => ?_, fun a => ?_⟩
    · intro o
      have refuses {res : OrderResult} (e : checkWriteOff h.params u = .error res) : answers .writeOffCard res u :=
        checks_refuse rfl (by decide) a rfl e
      refine ⟨fun hc => refuses (checkWriteOff_closed found' hc), fun hc out => refuses (checkWriteOff_beyond found' hc out),
        fun hc hq below => refuses (checkWriteOff_below found' hc hq below), fun p hc _ _ _ hp => ?_⟩
      have judged := checkWriteOff_position found' hc hp
      refine ⟨fun settled => refuses ?_, fun taken => refuses ?_, fun free => ?_⟩
      · rw [judged]; obtain e | e := settled <;> simp [Position.settled, e]
      · rw [judged]; obtain e | e := taken <;> simp [Position.settled, e]
      · have passes : checkWriteOff h.params u = .ok (r, p) := by
          rw [judged]; obtain e | e := free <;> simp [Position.settled, e]
        exact checks_pass rfl (by decide) a rfl passes rfl (advanceRun_apart _ _).queue
    · refine ⟨fun hc => accepted_refused rfl (by decide) a (takeDeleteRun_open found' hc), fun hc => ?_⟩
      rw [← filter_others]
      exact accepted_row rfl a (by decide) (quietQueue_of_queue (acceptedState_quiet a) rfl) (takeDeleteRun_closed found' hc)

end Sys2Proof.Machine
end

section
/-! Proofs. Record fields and action records are read back as they were written (R57, R80, R81, R189). -/

namespace Sys2Proof.Machine

theorem byteOf_toNat {n : Nat} (h : n < 256) : (byteOf n).toNat = n := by
  simp [byteOf, Nat.mod_eq_of_lt h]

/-! ### Fields -/

theorem fieldBytes_cons (f : Field) (fs : List Field) :
    fieldBytes (f :: fs) = f.tag :: byteOf f.value.length :: (f.value ++ fieldBytes fs) := rfl

/-- The fields are read back one at a time (R57). -/
theorem parseFields_fieldBytes (fs : List Field) (h : ∀ f ∈ fs, 1 ≤ f.value.length ∧ f.value.length ≤ 200) :
    parseFields fs.length (fieldBytes fs) = some fs := by
  induction fs with
  | nil => rfl
  | cons f fs ih =>
    obtain ⟨lower, upper⟩ := h f List.mem_cons_self
    have rest := ih fun g hg => h g (List.mem_cons_of_mem f hg)
    have length : (byteOf f.value.length).toNat = f.value.length := byteOf_toNat (by omega)
    have sound : ¬(f.value.length = 0 ∨ 200 < f.value.length ∨ (f.value ++ fieldBytes fs).length < f.value.length) := by
      rw [List.length_append]; omega
    rw [fieldBytes_cons, List.length_cons, parseFields, length, if_neg sound, List.drop_left, List.take_left, rest]
    rfl

theorem recordFields_read (run seq : Word) {fs : List Field} (few : 1 ≤ fs.length) (many : fs.length ≤ 32)
    (tags : (fs.map Field.tag).Nodup) (h : ∀ f ∈ fs, 1 ≤ f.value.length ∧ f.value.length ≤ 200) :
    recordFields (be32 run.toNat ++ be32 seq.toNat ++ [byteOf fs.length] ++ fieldBytes fs) = some fs := by
  have count : byteAt (be32 run.toNat ++ be32 seq.toNat ++ [byteOf fs.length] ++ fieldBytes fs) 8 = byteOf fs.length := rfl
  have fields : (be32 run.toNat ++ be32 seq.toNat ++ [byteOf fs.length] ++ fieldBytes fs).drop 9 = fieldBytes fs := rfl
  have number : (byteOf fs.length).toNat = fs.length := byteOf_toNat (by omega)
  have counted : ¬(fs.length = 0 ∨ 32 < fs.length) := by omega
  simp only [recordFields, count, fields, number, if_neg counted, parseFields_fieldBytes fs h, if_pos tags]

/-! ### Actions -/

theorem actionKindOf_code (k : ActionKind) : actionKindOf k.code = some k := by cases k <;> rfl

/-- A variant's two bytes are read back (R80). -/
theorem numAt_be16 {n : Nat} (h : n < 65536) (bs rest : Bytes) : numAt (bs ++ be16 n ++ rest) bs.length 2 = n := by
  have slice : sliceBytes (bs ++ be16 n ++ rest) bs.length 2 = be16 n := by
    rw [sliceBytes, List.append_assoc, List.drop_left]; rfl
  rw [numAt, slice]
  simp [natOfBytes, be16, byteOf]
  omega

/-- An action record is read back as the action it was written from (R80, R81). -/
theorem actionOf_report {a : Action} (h : a.source < 256 ∧ a.result < 256 ∧ a.repeats < 256) (rest : Bytes) :
    actionOf (a.report ++ rest) = .ok a := by
  obtain ⟨source, result, repeats⟩ := h
  have variant : numAt (a.report ++ rest) 4 2 = a.variant.toNat := by
    have shape : a.report ++ rest = [a.kind.code, byteOf a.source, byteOf a.result, byteOf a.repeats] ++ be16 a.variant.toNat ++
        ([flagByte a.optional] ++ rest) := by simp [Action.report]
    rw [shape]
    exact numAt_be16 a.variant.isLt _ _
  have kind : byteAt (a.report ++ rest) 0 = a.kind.code := rfl
  have sourceByte : byteAt (a.report ++ rest) 1 = byteOf a.source := rfl
  have resultByte : byteAt (a.report ++ rest) 2 = byteOf a.result := rfl
  have repeatsByte : byteAt (a.report ++ rest) 3 = byteOf a.repeats := rfl
  have optional : byteAt (a.report ++ rest) 6 = flagByte a.optional := rfl
  simp only [actionOf, kind, actionKindOf_code, optional, flagOf_flagByte, ok_bind, pure_ok, sourceByte, resultByte, repeatsByte,
    byteOf_toNat source, byteOf_toNat result, byteOf_toNat repeats, variant, BitVec.ofNat_toNat, BitVec.setWidth_eq]

theorem actionsOf_reports (actions : List Action) (rest : Bytes)
    (h : ∀ a ∈ actions, a.source < 256 ∧ a.result < 256 ∧ a.repeats < 256) :
    actionsOf actions.length (actions.flatMap Action.report ++ rest) = .ok actions := by
  induction actions with
  | nil => rfl
  | cons a actions ih =>
    have first := actionOf_report (h a List.mem_cons_self) (actions.flatMap Action.report ++ rest)
    have others := ih fun b hb => h b (List.mem_cons_of_mem a hb)
    have next : (a.report ++ (actions.flatMap Action.report ++ rest)).drop 7 = actions.flatMap Action.report ++ rest := rfl
    rw [List.flatMap_cons, List.append_assoc, List.length_cons, actionsOf, first, ok_bind, next, others, ok_bind, pure_ok]

/-- Settles O15, by induction on the fields and on the actions. -/
theorem recordsAreReadBack : Obligations.RecordsAreReadBack :=
  ⟨fun run seq _ few many tags h => recordFields_read run seq few many tags h,
    fun actions rest h => actionsOf_reports actions rest h⟩

end Sys2Proof.Machine
end

section
/-! Proofs. The reading orders and the bytes they report (R19, R75, R81, R119, R134, R165, R190). -/

namespace Sys2Proof.Machine

/-! ### The parts of a report -/

/-- The three bits of a set of hold causes. -/
theorem holdCauses_byte (x : HoldCauses) :
    x.byte = byteOf (x.order.toNat + 2 * x.overspoil.toNat + 4 * x.key.toNat) := by
  obtain ⟨order, overspoil, key⟩ := x
  simp only [HoldCauses.byte, bitByte, List.foldr_cons, List.foldr_nil]
  congr 1
  omega

theorem faultCauses_byte (x : FaultCauses) : x.byte = byteOf (x.link.toNat + 2 * x.lapses.toNat) := by
  simp only [FaultCauses.byte, bitByte, List.foldr_cons, List.foldr_nil]
  congr 1
  omega

/-- A set of four groups in a byte (12.2). -/
theorem bitByte_four : ∀ a b c d : Bool,
    (∀ i : Fin 4, (bitByte [a, b, c, d]).getLsbD i.val = [a, b, c, d].get i) ∧ (bitByte [a, b, c, d]).toNat < 16 := by
  decide

theorem groupsOf_spec (s : State) (l : LineNo) :
    (∀ g : GroupNo, (s.groupsOf l).getLsbD g.val = s.inGroup g l) ∧ (s.groupsOf l).toNat < 16 := by
  obtain ⟨bits, small⟩ := bitByte_four (s.inGroup 0 l) (s.inGroup 1 l) (s.inGroup 2 l) (s.inGroup 3 l)
  refine ⟨fun g => (bits g).trans ?_, small⟩
  fin_cases g <;> rfl

/-- The minutes of an open window, rounded up or down (R165, log 10). -/
theorem minutesLeft_spec (ms : Nat) :
    ms / 60000 ≤ minutesLeft ms ∧ minutesLeft ms ≤ ms / 60000 + 1 ∧ (ms % 60000 = 0 → minutesLeft ms = ms / 60000) := by
  have round := Bool.toNat_le (Config.roundMinutesUp ms)
  unfold minutesLeft
  split
  · exact ⟨le_rfl, Nat.le_succ _, fun _ => rfl⟩
  · next h => exact ⟨Nat.le_add_right _ _, by omega, fun e => absurd e h⟩

/-- What is found in a list, one after another. -/
theorem flatMap_filterMap_eq {α β γ : Type} (f : α → Option β) (g : β → List γ) (xs : List α) :
    (xs.filterMap f).flatMap g = xs.flatMap fun x => (f x).elim [] g := by
  induction xs with
  | nil => rfl
  | cons x xs ih =>
    rw [List.flatMap_cons, ← ih, List.filterMap_cons]
    cases f x <;> rfl

/-- The positions that READ RUN reports are those of the window in offset order (R75). -/
theorem positionReport_eq (r : Run) :
    r.positionReport = ((List.range 64).filterMap fun i => r.position (r.low + i)).flatMap Position.report := by
  rw [flatMap_filterMap_eq, Run.positionReport]
  refine congrArg (fun f => (List.range 64).flatMap f) (funext fun i => ?_)
  cases r.position (r.low + i) <;> rfl

/-- The six sensors in ascending order (R165). -/
theorem sensors_eq (s : State) : s.tamper.sensors.toList = (List.finRange 6).map s.sensor := by
  rw [← List.ofFn_eq_map, ← Vector.toList_ofFn]
  congr 1
  ext i hi
  rw [Vector.getElem_ofFn]
  rfl

/-! ### A report does not see that an order was accepted -/

theorem acceptedState_lineReport (h : OrderInHand) (s : State) (l : LineNo) :
    lineReport (acceptedState h s) l = lineReport s l := by
  simp [lineReport, State.groupsOf, State.inGroup, State.group, State.line, State.reported, State.lineKeyUsable]

theorem acceptedState_tamperReport (h : OrderInHand) (s : State) : tamperReport (acceptedState h s) = tamperReport s := by
  simp [tamperReport, State.lockRelease]

@[simp] theorem acceptedState_line (h : OrderInHand) (s : State) (l : LineNo) : (acceptedState h s).line l = s.line l := by
  simp [State.line]

@[simp] theorem acceptedState_recipeUsers (h : OrderInHand) (s : State) (n : RecipeNo) :
    (acceptedState h s).recipeUsers n = s.recipeUsers n := by
  simp [State.recipeUsers]

theorem acceptedState_linkReport (h : OrderInHand) (s : State) : linkReport (acceptedState h s) = linkReport s := by
  simp [linkReport]

theorem endDecisionStep_tamperReport (s : State) (h : OrderInHand) : tamperReport (s.endDecisionStep h) = tamperReport s := by
  simp [tamperReport, State.lockRelease]

theorem lineCleared_eq (x : Line) (counters : Bool) :
    x.cleared counters =
      let y := { x with flags := ⟨false, false, false⟩ }
      if counters then { y with lapses := .zero, strays := .zero, rejects := .zero, late := .zero } else y := by
  cases counters <;> rfl

/-! ### The orders -/

section
variable {a : OrderArgs} {s : State}

theorem takeReadRun_known {r : Run} (h : s.run (wordAt a.params 0) = some r) :
    takeReadRun a s = .answered .done (r.fieldReport ++ r.positionReport) s := by
  rw [takeReadRun, knownRun_eq h, checked_ok]

theorem takeReadRecipe_undefined {n : RecipeNo} (hn : (byteAt a.params 0).toNat = n.val) (h : s.recipe n = none) :
    takeReadRecipe a s = .answered .noSuch [] s := by
  simp [takeReadRecipe, recipeOf_eq hn, h]

theorem takeReadRecipe_defined {n : RecipeNo} {actions : List Action} (hn : (byteAt a.params 0).toNat = n.val)
    (h : s.recipe n = some actions) :
    takeReadRecipe a s = .answered .done (actions.flatMap Action.report ++ [byteOf (s.recipeUsers n)]) s := by
  simp [takeReadRecipe, recipeOf_eq hn, h]

theorem takeReadLine_reports {l : LineNo} {clear : Bool} (hl : (byteAt a.params 0).toNat = l.val)
    (hc : byteAt a.params 1 = flagByte clear) :
    takeReadLine a s = .answered .done (lineReport s l) (s.setLine l ((s.line l).cleared clear)) := by
  simp [takeReadLine, lineOf_eq hl, hc, flagOf_flagByte]

theorem takeReadSlot_high (h : 64 ≤ (byteAt a.params 0).toNat) : takeReadSlot a s = .answered .noSuch [] s := by
  rw [takeReadSlot, slotOf_high h, checked_error]

theorem takeReadSlot_reports {n : SlotNo} (h : (byteAt a.params 0).toNat = n.val) :
    takeReadSlot a s = .answered .done (slotReport (s.slot n) s.time.millis) s := by
  rw [takeReadSlot, slotOf_eq h, checked_ok]

end

/-- Settles O37: each order by what it takes, each report by its parts. -/
theorem readingOrdersReport : Obligations.ReadingOrdersReport := by
  refine ⟨fun s h => ?_, ⟨fun s h a => ⟨fun high => ?_, fun n hn => ?_⟩, fun _ _ _ _ => rfl⟩, ?_⟩
  · intro u
    refine ⟨fun r a hr => ?_, fun n a hn => ⟨fun hr => ?_, fun actions hr => ?_⟩, fun l clear a hl hc => ?_,
      fun a => ?_, fun a => ?_, fun a => ?_⟩
    · exact accepted_row rfl a (by decide) (acceptedState_quiet a) (takeReadRun_known ((acceptedState_run h s _).trans hr))
    · exact accepted_refused rfl (by decide) a (takeReadRecipe_undefined hn ((acceptedState_recipe h s n).trans hr))
    · have taken := takeReadRecipe_defined (a := { number := h.number, custodian := s.order.gate.custodian, params := h.params }) hn
        ((acceptedState_recipe h s n).trans hr)
      rw [acceptedState_recipeUsers] at taken
      exact accepted_row rfl a (by decide) (acceptedState_quiet a) taken
    · intro x
      have taken := takeReadLine_reports (s := u)
        (a := { number := h.number, custodian := s.order.gate.custodian, params := h.params }) hl hc
      rw [acceptedState_lineReport, acceptedState_line, lineCleared_eq] at taken
      exact accepted_row rfl a (by decide) (quietQueue_of_queue (acceptedState_quiet a) rfl) taken
    · refine accepted_row rfl a (by decide) (quietQueue_of_queue (acceptedState_quiet a) rfl) ?_
      rw [← acceptedState_linkReport h s]; rfl
    · refine accepted_row rfl a (by decide) (acceptedState_quiet a) ?_
      rw [← acceptedState_tamperReport h s]; rfl
    · refine untagged_row rfl a (endDecisionStep_quiet a) ?_
      rw [← endDecisionStep_tamperReport s h]; rfl
  · exact accepted_refused rfl (by decide) a (takeReadSlot_high high)
  · have taken := takeReadSlot_reports (s := acceptedState h s)
      (a := { number := h.number, custodian := s.order.gate.custodian, params := h.params }) hn
    rw [acceptedState_slot, acceptedState_time] at taken
    exact accepted_row rfl a (by decide) (acceptedState_quiet a) taken
  intro flag maybe count16
  have present : maybe = optionalField := by funext w v; cases v <;> rfl
  rw [present]
  refine ⟨fun r => ?_, fun r => positionReport_eq r, fun s l => ?_, fun s => rfl, fun s => ?_, fun k now => rfl⟩
  · simp only [Run.fieldReport, Run.counters, holdCauses_byte, List.append_assoc]; rfl
  · obtain ⟨members, small⟩ := groupsOf_spec s l
    refine ⟨s.groupsOf l, members, small, ?_⟩
    rw [lineReport, faultCauses_byte]
    cases (s.line l).keySlot <;> rfl
  · intro m
    refine ⟨minutesLeft (m.window.getD 0), fun w hw => ?_, ?_⟩
    · rw [hw]; exact minutesLeft_spec w
    · have minutes : (m.window.map fun ms => [byteOf (minutesLeft ms)]) =
          m.window.map fun _ => [byteOf (minutesLeft (m.window.getD 0))] := by cases m.window <;> rfl
      have entries : m.record.flatMap TamperEntry.report = m.record.flatMap fun e =>
          [match e.source with | .sensor i => byteOf i.val | .order => 0x0F] ++ be32 e.seconds ++
            optionalField 2 (e.millis.map fun x => be16 x.toNat) ++ [e.action.code, e.before.code] := by
        refine congrArg (fun f => m.record.flatMap f) (funext fun e => ?_)
        rw [TamperEntry.report]
        cases e.source <;> rfl
      rw [tamperReport, minutes, sensors_eq, List.flatMap_map, entries]
      simp only [List.append_assoc]
      rfl

end Sys2Proof.Machine
end

section
/-! Proofs. The walk of a record through the instances of its recipe, and the steps of those in progress (R37 to R41, R83 to R88,
R92). -/

namespace Sys2Proof.Machine

/-! ### Lengths and blocks -/

theorem oversize_iff (w : Work) (n : Nat) : w.oversize n = true ↔ ¬w.size + 2 + n ≤ 1000 := by
  rw [Work.oversize, decide_eq_true_iff, Nat.not_le]

theorem rewrapLength_iff (n : Nat) : rewrapLength n = true ↔ n = 16 ∨ n = 32 ∨ n = 48 ∨ n = 64 := by
  simp only [rewrapLength, Bool.or_eq_true, decide_eq_true_eq, or_assoc]

/-- The first block of a field and those after it (R40). -/
theorem blocksOf_eq {bs : Bytes} (h : 16 ≤ bs.length) :
    blocksOf bs =
      blockOfBytes (sliceBytes bs (16 * 0) 16) ::
        (List.range (bs.length / 16 - 1)).map fun i => blockOfBytes (sliceBytes bs (16 * (i + 1)) 16) := by
  obtain ⟨m, hm⟩ : ∃ m, bs.length / 16 = m + 1 := ⟨bs.length / 16 - 1, by omega⟩
  rw [blocksOf, takeBlocks_eq, hm, Nat.add_sub_cancel, List.range_succ_eq_map, List.map_cons, List.map_map]
  rfl

/-- A check value is the first 3 bytes of its cipher result (R35). -/
theorem be24_checkOfBlock (v : Block) : be24 (checkOfBlock v).toNat = (bytesOfBlock v).take 3 := by
  have value : (checkOfBlock v).toNat = v.toNat / 2 ^ 104 := by
    have := v.isLt
    rw [checkOfBlock, BitVec.toNat_ofNat, Nat.mod_eq_of_lt]
    omega
  have bytes : (bytesOfBlock v).take 3 =
      [byteOf (v.toNat / 2 ^ 96 / 2 ^ 24), byteOf (v.toNat / 2 ^ 96 / 2 ^ 16), byteOf (v.toNat / 2 ^ 96 / 2 ^ 8)] := rfl
  simp only [bytes, be24, value, Nat.div_div_eq_div_mul, ← pow_add]

/-! ### The request of a use -/

/-- The engine's request: granted, it waits for the step under the key; refused, the record fails with the refusal's reason (R92
step 4). -/
theorem requestStep_asks {w : Work} {n : SlotNo} {u : UseKind} {next : Block → Waiting × CipherStep} {s : State}
    {r : WalkEnd × State} (h : r = requestStep w (some n) u next s) :
    (∀ key t, requestUse n u s = (.ok key, t) → r = (.waits { w with waiting := (next key).1 } (next key).2, t)) ∧
    (∀ reason t, requestUse n u s = (.error reason, t) → r = (.fails w reason, t)) := by
  subst h
  constructor <;> intro _ t answer <;> simp only [requestStep, answer]

/-! ### The walk by the kind of what comes next -/

section
variable {a : ActionInst} {rest : List ActionInst} {w : Work} {s : State}

theorem walk_absent (hk : a.kind = .copy ∨ a.kind = .derive ∨ a.kind = .rewrap) (hv : w.source a.source = none) :
    walk (a :: rest) w s =
      if a.optional then walk rest { w with todo := a :: rest } s else (.fails { w with todo := a :: rest } .missingField, s) := by
  have source : ({ w with todo := a :: rest } : Work).source a.source = none := hv
  obtain hk | hk | hk := hk <;> simp only [walk, hk, source]

theorem walk_stamp (hk : a.kind = .stamp) :
    walk (a :: rest) w s =
      if w.oversize 12 then (.fails { w with todo := a :: rest } .outputOversize, s)
      else walk rest (w.write a.result w.stamp rest) s := by
  simp only [walk, hk]; rfl

theorem walk_outTag (hk : a.kind = .outTag) :
    walk (a :: rest) w s =
      if w.oversize 8 then (.fails { w with todo := a :: rest } .outputOversize, s)
      else
        requestStep { w with todo := a :: rest } (some w.keySlot) .wrap
          (fun key => (.outTag (TagJob.start key (fieldBytes w.output)), (TagJob.start key (fieldBytes w.output)).step)) s := by
  simp only [walk, hk]; rfl

variable {v : Bytes}

theorem walk_copy (hk : a.kind = .copy) (hv : w.source a.source = some v) :
    walk (a :: rest) w s =
      if w.oversize v.length then (.fails { w with todo := a :: rest } .outputOversize, s)
      else walk rest (w.write a.result v rest) s := by
  have source : ({ w with todo := a :: rest } : Work).source a.source = some v := hv
  simp only [walk, hk, source]; rfl

theorem walk_derive (hk : a.kind = .derive) (hv : w.source a.source = some v) (valid : validIdentity v = true) :
    walk (a :: rest) w s =
      if w.oversize 19 then (.fails { w with todo := a :: rest } .outputOversize, s)
      else
        requestStep { w with todo := a :: rest } (s.masterOf w) .derivation
          (fun key =>
            (.deriveKey (derivationBlock v a.variant), { fn := .enc, key := key, block := derivationBlock v a.variant })) s := by
  have source : ({ w with todo := a :: rest } : Work).source a.source = some v := hv
  simp only [walk, hk, source, valid, Bool.not_true, Bool.false_eq_true, if_false]; rfl

theorem walk_rewrap_misfit (hk : a.kind = .rewrap) (hv : w.source a.source = some v) (sized : rewrapLength v.length = false) :
    walk (a :: rest) w s = (.fails { w with todo := a :: rest } .badLength, s) := by
  have source : ({ w with todo := a :: rest } : Work).source a.source = some v := hv
  simp only [walk, hk, source, sized, Bool.not_false, if_true]

theorem walk_rewrap (hk : a.kind = .rewrap) (hv : w.source a.source = some v) (sized : rewrapLength v.length = true) :
    walk (a :: rest) w s =
      if w.oversize v.length then (.fails { w with todo := a :: rest } .outputOversize, s)
      else
        requestStep { w with todo := a :: rest } (s.prepOf w) .unwrap
          (fun key => (.unwrap [] (blocksOf v).tail, { fn := .dec, key := key, block := (blocksOf v).headD 0 })) s := by
  have source : ({ w with todo := a :: rest } : Work).source a.source = some v := hv
  simp only [walk, hk, source, sized, Bool.not_true, Bool.false_eq_true, if_false]; rfl

end

theorem masterOf_eq {s : State} {w : Work} {r : Run} (h : s.run w.run = some r) : s.masterOf w = some r.master := by
  rw [State.masterOf, h, Option.map_some]

theorem prepOf_eq {s : State} {w : Work} {r : Run} {n : SlotNo} (h : s.run w.run = some r) (hn : r.prep = some n) :
    s.prepOf w = some n := by
  rw [State.prepOf, h, Option.bind_some, hn]

/-! ### The steps of instances in progress -/

theorem finishInstance_eq {w : Work} {a : ActionInst} {rest : List ActionInst} (h : w.todo = a :: rest) (value : Bytes) (s : State) :
    finishInstance value w s = walk rest (w.write a.result value rest) s := by
  simp only [finishInstance, h]

/-- Settles O52: the walk by the kind of what comes next, a step's result by the step the record waits for. -/
theorem instancesTransformFields : Obligations.InstancesTransformFields := by
  refine ⟨fun a rest w s => ?_, fun w a rest v s todo => ?_⟩
  · intro here source fits gives writes asks
    have oversized {n : Nat} (h : ¬fits n) : w.oversize n = true := (oversize_iff w n).2 h
    have sound {n : Nat} (h : fits n) : ¬w.oversize n = true := fun c => (oversize_iff w n).1 c h
    refine ⟨rfl, fun hk absent => ⟨fun optional => ?_, fun required => ?_⟩, fun hk => ⟨fun fit => ?_, fun big => ?_⟩,
      fun hk => ⟨fun fit => ?_, fun big => ?_⟩, fun v hv => ⟨fun hk => ⟨fun fit => ?_, fun big => ?_⟩,
      fun hk => ⟨fun bad => ?_, fun valid big => ?_, fun r valid fit hr => ?_⟩,
      fun hk => ⟨fun misfit => ?_, fun sized big => ?_, fun r n sized fit hr hn => ?_⟩⟩⟩
    · exact (walk_absent hk absent).trans (if_pos optional)
    · exact (walk_absent hk absent).trans (if_neg (Bool.eq_false_iff.1 required))
    · exact (walk_stamp hk).trans (if_neg (sound fit))
    · exact (walk_stamp hk).trans (if_pos (oversized big))
    · exact requestStep_asks ((walk_outTag hk).trans (if_neg (sound fit)))
    · exact (walk_outTag hk).trans (if_pos (oversized big))
    · exact (walk_copy hk hv).trans (if_neg (sound fit))
    · exact (walk_copy hk hv).trans (if_pos (oversized big))
    · exact (identityIsR37 v).2 a rest w s hk hv bad
    · exact (walk_derive hk hv valid).trans (if_pos (oversized big))
    · have asked := (walk_derive (rest := rest) (s := s) hk hv valid).trans (if_neg (sound fit))
      rw [masterOf_eq hr] at asked
      exact requestStep_asks asked
    · exact walk_rewrap_misfit hk hv (Bool.eq_false_iff.2 fun c => misfit ((rewrapLength_iff _).1 c))
    · exact (walk_rewrap hk hv ((rewrapLength_iff _).2 sized)).trans (if_pos (oversized big))
    · have asked := (walk_rewrap (rest := rest) (s := s) hk hv ((rewrapLength_iff _).2 sized)).trans (if_neg (sound fit))
      rw [prepOf_eq hr hn, blocksOf_eq (by omega)] at asked
      exact requestStep_asks asked
  · intro gives writes asks
    have written {value : Bytes} (h : resume v w s = finishInstance value w s) : writes value :=
      h.trans (finishInstance_eq todo value s)
    have asked {n : SlotNo} {u : UseKind} {x : Waiting} {step : Block → CipherStep}
        (h : resume v w s = requestStep w (some n) u (fun key => (x, step key)) s) : asks n u x step := requestStep_asks h
    refine ⟨fun d hw => ?_, fun k hw => ?_, fun x hw => ?_, fun done more hw => ?_, fun done hw => ?_,
      fun done c more r n hw hr hn => ?_, fun j hw => ⟨fun more => ?_, fun last => ?_⟩⟩
    · exact asked (by simp only [resume, hw])
    · show resume v w s = _
      simp only [resume, hw]; rfl
    · rw [← be24_checkOfBlock]
      exact written (by simp only [resume, hw])
    · exact asked (by simp only [resume, hw])
    · exact written (by simp only [resume, hw])
    · exact asked (by simp only [resume, hw, prepOf_eq hr hn])
    · show resume v w s = _
      simp only [resume, hw, isLast_false more, Bool.false_eq_true, if_false]; rfl
    · rw [← bytesOfTag_truncateTag]
      exact written (by simp only [resume, hw, isLast_true last, if_true])

end Sys2Proof.Machine
end

section
/-! Proofs. The end of the engine's step (R92, R93, R95, R96). -/

namespace Sys2Proof.Machine

/-! ### The engine's waiting step -/

/-- A working engine takes nothing (R91). -/
theorem engineTake_working {s : State} (h : s.engine ≠ none) : engineTake s = s := by
  have working : s.engine.isSome = true := Option.isSome_iff_ne_none.2 h
  unfold engineTake
  cases s.runs.staging.length with
  | zero => rfl
  | succ n => simp only [takeLoop, working, if_true]

/-- A walk that waits for a step ends the event's takes (R91, R92). -/
theorem engineTake_waits (v : Work) (c : CipherStep) (t : State) :
    engineTake (endWalk (.waits v c, t)) = { t with engine := some v, core := { t.core with engineWaits := some c } } :=
  engineTake_working (Option.some_ne_none v)

/-- The engine's waiting step is begun by an idle Core, or goes on waiting (R32). -/
theorem settleCore_engineWaits {s : State} {c : CipherStep} (hw : s.core.work = .idle) (he : s.core.engineWaits = some c) :
    (settleCore s).core.work = .engine c false ∨ (settleCore s).core.engineWaits = some c := by
  have waits : (settleCore s).core.engineWaits = (beginStep (presentSteps s)).core.engineWaits := rfl
  have he' : (presentSteps s).core.engineWaits = some c := he
  rw [settleCore_work, waits]
  obtain ⟨-, ⟨k, rest, -, hc⟩ | ⟨-, d, hd, hc⟩ | ⟨-, hd, -⟩⟩ := beginStep_cases (s := presentSteps s) hw
  · right; rw [hc]; exact he
  · left
    obtain rfl : c = d := Option.some.inj (he'.symm.trans hd)
    rw [hc]
  · exact absurd (he'.symm.trans hd) (Option.some_ne_none c)

/-! ### The event -/

theorem endStep_quiet {s : State} (h : s.quiet) : s.endStep.quiet := h

theorem exec_engineCipherStep_discarded {s : State} {c : CipherStep} (h : s.core.work = .engine c true) :
    exec .engineCipherStep s = .next (settleCore s.endStep) := by
  show execEngineCipherStep s = _
  simp only [execEngineCipherStep, h]

theorem exec_engineCipherStep {s : State} {c : CipherStep} {w : Work} (h : s.core.work = .engine c false) (hw : s.engine = some w) :
    exec .engineCipherStep s = .next (settleUnit (endWalk (resume c.result w s.endStep))) := by
  show execEngineCipherStep s = _
  simp only [execEngineCipherStep, h, hw]

/-- A step's result leaves the unit quiet, however the walk goes on (R92). -/
theorem endWalk_resume_quiet {s : State} (h : s.quiet) (v : Block) (w : Work) : (endWalk (resume v w s.endStep)).quiet :=
  ((resume_apart v w s.endStep).trans (endWalk_apart _)).quiet (endStep_quiet h)

/-- Settles O53: a discarded step, and a result after which the walk waits, fails or completes. -/
theorem engineStepGoesOn : Obligations.EngineStepGoesOn := by
  intro s c hq
  refine ⟨fun hw => ⟨_, exec_engineCipherStep_discarded hw, settleCore_settles (endStep_quiet hq)⟩, fun w hw he => ?_⟩
  refine ⟨_, exec_engineCipherStep hw he, ?_⟩
  have settles := settleUnit_settles (endWalk_resume_quiet hq c.result w)
  have idle : (resume c.result w s.endStep).2.core.work = .idle := (resume_apart c.result w s.endStep).work
  generalize resume c.result w s.endStep = e at settles idle ⊢
  obtain ⟨⟨v, step⟩ | ⟨v, reason⟩ | v, u⟩ := e
  case waits =>
    rw [settleUnit, engineTake_waits] at *
    exact ⟨settles, settleCore_engineWaits idle rfl⟩
  case fails => exact settles
  case completes => exact settles

end Sys2Proof.Machine
end

section
/-! Proofs. The dispatch arbiter's choice (R114), the records that are eligible (R3, R90), and the take (R91). -/

namespace Sys2Proof.Machine

/-! ### Lines and keys -/

theorem usable_iff (k : Slot) :
    k.usable = true ↔ k.state = .active ∧ (k.ceiling = 0 ∨ k.uses.value < k.ceiling) := by
  rw [Slot.usable, Bool.and_eq_true, decide_eq_true_iff, underCeiling_iff]

theorem dispatchable_iff (s : State) (l : LineNo) :
    s.dispatchable l = true ↔
      s.dispatch.production = true ∧ s.reported l = .ready ∧ (s.line l).occupied < (s.line l).limit := by
  simp only [State.dispatchable, Bool.and_eq_true, decide_eq_true_eq, and_assoc]

theorem runRewraps_iff (s : State) (r : Run) :
    s.runRewraps r = true ↔ ∃ actions a, s.recipe r.recipe = some actions ∧ a ∈ actions ∧ a.kind = .rewrap := by
  unfold State.runRewraps
  cases s.recipe r.recipe <;> simp [hasRewrap]

theorem keysUsable_iff (s : State) (r : Run) :
    s.keysUsable r = true ↔
      (s.slot r.master).usable = true ∧
        (s.runRewraps r = true → ∃ n, r.prep = some n ∧ (s.slot n).usable = true) := by
  unfold State.keysUsable
  cases s.runRewraps r <;> cases r.prep <;> simp

/-! ### The dispatch arbiter -/

theorem mem_openLines {s : State} {g : GroupNo} {l : LineNo} :
    l ∈ s.openLines g ↔ s.inGroup g l = true ∧ s.dispatchable l = true := by
  simp [State.openLines]

/-- One line is sent to rather than another: it has less occupied credit, or as much and the lower number (R114). -/
def State.prefers (s : State) (a b : LineNo) : Prop :=
  (s.line a).occupied < (s.line b).occupied ∨ ((s.line a).occupied = (s.line b).occupied ∧ a.val ≤ b.val)

theorem prefers_refl (s : State) (a : LineNo) : s.prefers a a := .inr ⟨rfl, le_rfl⟩

theorem State.prefers.trans {s : State} {a b c : LineNo} (h : s.prefers a b) (k : s.prefers b c) : s.prefers a c := by
  unfold State.prefers at *; omega

theorem State.prefers.antisymm {s : State} {a b : LineNo} (h : s.prefers a b) (k : s.prefers b a) : a = b := by
  refine Fin.ext ?_
  unfold State.prefers at *; omega

/-- Of two lines in ascending order the better one is preferred to both (R114). -/
theorem betterLine_prefers (s : State) {a b : LineNo} (h : a < b) :
    (s.betterLine a b = a ∨ s.betterLine a b = b) ∧ s.prefers (s.betterLine a b) a ∧ s.prefers (s.betterLine a b) b := by
  have lower : a.val < b.val := h
  unfold State.betterLine State.prefers
  split
  · exact ⟨.inr rfl, by omega, by omega⟩
  · exact ⟨.inl rfl, by omega, by omega⟩

/-- Going through lines in ascending order leaves the one preferred to all of them (R114). -/
theorem foldl_betterLine (s : State) {a : LineNo} {rest : List LineNo} (h : (a :: rest).Pairwise (· < ·)) :
    rest.foldl s.betterLine a ∈ a :: rest ∧ ∀ m ∈ a :: rest, s.prefers (rest.foldl s.betterLine a) m := by
  induction rest generalizing a with
  | nil => exact ⟨List.mem_cons_self, fun m hm => by rw [List.mem_singleton.1 hm]; exact prefers_refl s a⟩
  | cons b rest ih =>
    obtain ⟨before, sorted⟩ := List.pairwise_cons.1 h
    obtain ⟨either, overA, overB⟩ := betterLine_prefers s (before b List.mem_cons_self)
    have ascending : (s.betterLine a b :: rest).Pairwise (· < ·) := by
      obtain e | e := either <;> rw [e]
      · exact h.sublist (by simp)
      · exact sorted
    obtain ⟨mem, best⟩ := ih ascending
    have better := best _ List.mem_cons_self
    refine ⟨?_, fun m hm => ?_⟩
    · obtain e | later := List.mem_cons.1 mem
      · rw [List.foldl_cons, e]
        obtain e | e := either <;> simp [e]
      · exact List.mem_cons_of_mem a (List.mem_cons_of_mem b later)
    · rcases List.mem_cons.1 hm with rfl | hm
      · exact better.trans overA
      · rcases List.mem_cons.1 hm with rfl | later
        · exact better.trans overB
        · exact best m (List.mem_cons_of_mem _ later)

theorem openLines_sorted (s : State) (g : GroupNo) : (s.openLines g).Pairwise (· < ·) :=
  (List.pairwise_lt_finRange 8).filter _

/-- The arbiter chooses the open line that is preferred to every other (R114). -/
theorem chooseLine_iff (s : State) (g : GroupNo) (l : LineNo) :
    s.chooseLine g = some l ↔ l ∈ s.openLines g ∧ ∀ m ∈ s.openLines g, s.prefers l m := by
  have sorted := openLines_sorted s g
  unfold State.chooseLine
  generalize s.openLines g = lines at sorted ⊢
  cases lines with
  | nil => simp
  | cons a rest =>
    obtain ⟨mem, best⟩ := foldl_betterLine s sorted
    rw [Option.some_inj]
    refine ⟨?_, fun ⟨hl, least⟩ => (best l hl).antisymm (least _ mem)⟩
    rintro rfl
    exact ⟨mem, best⟩

/-! ### Eligible records -/

theorem runEligible_iff (s : State) (r : Run) :
    s.runEligible r = true ↔
      r.state = .live ∧ s.store.custody = .operational ∧ s.suspended = false ∧ s.keysUsable r = true ∧
        ∃ l, s.inGroup r.group l = true ∧ s.dispatchable l = true := by
  have opens : (!(s.openLines r.group).isEmpty) = true ↔ ∃ l, s.inGroup r.group l = true ∧ s.dispatchable l = true := by
    rw [Bool.not_eq_true', List.isEmpty_eq_false_iff_exists_mem]
    simp only [mem_openLines]
  simp only [State.runEligible, Bool.and_eq_true, decide_eq_true_eq, opens, Bool.not_eq_true', and_assoc]

theorem eligible_iff (s : State) (x : StagedRecord) :
    s.eligible x = true ↔ ∃ r, s.run x.run = some r ∧ s.runEligible r = true := by
  unfold State.eligible
  cases s.run x.run <;> simp

/-! ### The take -/

theorem engineTake_of_none_eligible {s : State} (h : ∀ x ∈ s.runs.staging, s.eligible x = false) : engineTake s = s := by
  have no_take : s.nextTake = none := by
    unfold State.nextTake
    rw [List.find?_eq_none.2 fun x hx => Bool.eq_false_iff.1 (h x hx)]
  unfold engineTake
  cases s.runs.staging.length with
  | zero => rfl
  | succ n => simp only [takeLoop, no_take, ite_self]

/-- The next take is the oldest eligible record's, to the line that the arbiter chooses (R91). -/
theorem nextTake_eq {s : State} {before after : List StagedRecord} {x : StagedRecord} {r : Run} {l : LineNo} {key : SlotNo}
    (hs : s.runs.staging = before ++ x :: after) (hb : ∀ y ∈ before, s.eligible y = false) (hx : s.eligible x = true)
    (hr : s.run x.run = some r) (hl : s.chooseLine r.group = some l) (hk : (s.line l).keySlot = some key) :
    s.nextTake = some (x, r, l, key) := by
  have oldest : s.runs.staging.find? s.eligible = some x :=
    List.find?_eq_some_iff_append.2 ⟨hx, before, after, hs, fun y hy => by rw [hb y hy]; rfl⟩
  simp only [State.nextTake, oldest, hr, hl, hk, Option.map_some]

/-- The unit in which a taken record's walk begins: the line's credit reserved, the record no longer staged (R91). -/
def State.reserved (s : State) (x : StagedRecord) (l : LineNo) : State :=
  { s.setLine l { s.line l with occupied := (s.line l).occupied + 1 } with
    runs := { s.runs with staging := s.runs.staging.erase x } }

theorem takeRecord_eq {s : State} {x : StagedRecord} {r : Run} {l : LineNo} {key : SlotNo} {actions : List Action}
    (h : s.recipe r.recipe = some actions) :
    takeRecord x r l key s = endWalk (walk (expandRecipe actions) (takeWork x r l key) (s.reserved x l)) := by
  simp only [takeRecord, h]; rfl

/-- Settles O51: the take by how the walk it begins ends; the line chosen as the one preferred to every other open one. -/
theorem engineTakesTheOldestEligible : Obligations.EngineTakesTheOldestEligible := by
  refine ⟨fun s => ⟨engineTake_working, engineTake_of_none_eligible, fun x => ?_, fun g l => ?_, ?_⟩,
    fun s => ⟨dispatchable_iff s, fun _ _ => Iff.rfl, fun r => ?_⟩⟩
  · simp only [eligible_iff, runEligible_iff]
  · simp only [chooseLine_iff, mem_openLines, and_assoc, and_imp]; rfl
  · intro before x after r l key actions idle staged older eligible hr hl hk hrecipe
    have taken : engineTake s = engineTake (endWalk (walk (expandRecipe actions) (takeWork x r l key) (s.reserved x l))) := by
      rw [engineTake_of_next idle (nextTake_eq staged older eligible hr hl hk) (by rw [staged]; simp), takeRecord_eq hrecipe]
    refine ⟨takeWork x r l key, s.reserved x l, rfl, rfl, rfl, rfl, rfl, rfl, rfl, rfl, rfl, rfl, fun v c t ends => ?_,
      fun v reason t ends => ?_, fun v t ends => ?_⟩
    · rw [taken, ends, engineTake_waits]
    · rw [taken, ends]; rfl
    · rw [taken, ends]; rfl
  · rw [keysUsable_iff, runRewraps_iff]
    simp only [usable_iff]
    exact ⟨fun ⟨master, prep⟩ => ⟨master, fun actions a defined mem kind => prep ⟨actions, a, defined, mem, kind⟩⟩,
      fun ⟨master, prep⟩ => ⟨master, fun ⟨actions, a, defined, mem, kind⟩ => prep actions a defined mem kind⟩⟩

end Sys2Proof.Machine
end

section
/-! Proofs. DEFINE RECIPE (R79, R80). -/

namespace Sys2Proof.Machine

/-! ### The instances of a recipe -/

/-- The result tags of an action's instances, raised by one from each to the next (R79). -/
def Action.resultTags (a : Action) : List Byte := (List.range a.repeats).map fun i => byteOf (a.result + i)

theorem expandAction_results (number : Nat) (a : Action) : (expandAction number a).map ActionInst.result = a.resultTags := by
  simp only [expandAction, List.map_map]; rfl

theorem expandRecipe_results (actions : List Action) :
    (expandRecipe actions).map ActionInst.result = actions.flatMap Action.resultTags := by
  calc (expandRecipe actions).map ActionInst.result
      = actions.zipIdx.flatMap fun p => p.1.resultTags := by simp only [expandRecipe, List.map_flatMap, expandAction_results]
    _ = (actions.zipIdx.map Prod.fst).flatMap Action.resultTags := (List.flatMap_map Prod.fst Action.resultTags _).symm
    _ = actions.flatMap Action.resultTags := by rw [List.zipIdx_map_fst]

theorem expandRecipe_length (actions : List Action) :
    (expandRecipe actions).length = (actions.flatMap Action.resultTags).length := by
  rw [← expandRecipe_results, List.length_map]

/-! ### The ranges of an action -/

theorem once_iff (k : ActionKind) : k.once = true ↔ k = .stamp ∨ k = .outTag := by
  rw [ActionKind.once, Bool.or_eq_true, decide_eq_true_iff, decide_eq_true_iff]

/-- An action whose instances' tags all fit a byte (R80 step 6); STAMP and OUTTAG read no source. -/
theorem inRange_of {a : Action} (few : a.repeats ≤ 16) (result : a.result + a.repeats ≤ 256)
    (source : a.kind ≠ .stamp → a.kind ≠ .outTag → a.source + a.repeats ≤ 256) : a.inRange = true := by
  have sources : a.kind.once = true ∨ a.source + a.repeats - 1 ≤ 255 := by
    rw [once_iff]
    by_cases stamp : a.kind = .stamp
    · exact .inl (.inl stamp)
    by_cases outTag : a.kind = .outTag
    · exact .inl (.inr outTag)
    exact .inr (by have := source stamp outTag; omega)
  simp only [Action.inRange, Bool.and_eq_true, Bool.or_eq_true, decide_eq_true_eq]
  exact ⟨⟨few, sources⟩, by omega⟩

theorem taken_repeats_le {a : Action} (h : a.repeats ≤ 16) : a.taken.repeats ≤ 16 := by
  show (if a.repeats = 0 then 16 else a.repeats) ≤ 16
  split <;> omega

/-! ### The order's parameters -/

/-- The repeat field of each action record (12.2). -/
theorem byteAt_repeats {actions : List Action} {i : Nat} (h : i < actions.length) :
    byteAt (actions.flatMap Action.report) (7 * i + 3) = byteOf actions[i].repeats := by
  induction actions generalizing i with
  | nil => cases h
  | cons a actions ih =>
    cases i with
    | zero => rfl
    | succ i =>
      have next : byteAt ((a :: actions).flatMap Action.report) (7 * (i + 1) + 3) =
          byteAt (actions.flatMap Action.report) (7 * i + 3) := rfl
      rw [next, ih (Nat.lt_of_succ_lt_succ h)]; rfl

theorem byteOf_eq_zero_iff {n : Nat} (h : n < 256) : byteOf n = 0 ↔ n = 0 := by
  rw [← BitVec.toNat_inj, byteOf_toNat h]; rfl

/-- The parameters of a DEFINE RECIPE: the entry, the number of actions, and their records (12.2). -/
def recipeParams (n : RecipeNo) (given : List Action) : Bytes :=
  [byteOf n.val, byteOf given.length] ++ given.flatMap Action.report

section
variable {s : State} {n : RecipeNo} {given : List Action}

theorem recipeUsers_eq_zero_iff (s : State) (n : RecipeNo) :
    s.recipeUsers n = 0 ↔ ¬∃ r ∈ s.runs.table, r.state ≠ .closed ∧ r.recipe = n := by
  simp [State.recipeUsers, List.countP_eq_zero]

theorem repeatClamped_iff (many : given.length ≤ 16) (few : ∀ a ∈ given, a.repeats ≤ 16) :
    repeatClamped (recipeParams n given) = true ↔ ∃ a ∈ given, a.repeats = 0 := by
  have count : (byteAt (recipeParams n given) 1).toNat = given.length := byteOf_toNat (by omega)
  have field {i : Nat} (hi : i < given.length) : byteAt (recipeParams n given) (2 + 7 * i + 3) = 0 ↔ given[i].repeats = 0 := by
    have shifted : byteAt (recipeParams n given) (2 + 7 * i + 3) = byteAt (given.flatMap Action.report) (7 * i + 3) := by
      rw [show 2 + 7 * i + 3 = 7 * i + 3 + 1 + 1 by omega]; rfl
    have small := few _ (List.getElem_mem hi)
    rw [shifted, byteAt_repeats hi, byteOf_eq_zero_iff (by omega)]
  simp only [repeatClamped, count, List.any_eq_true, List.mem_range, decide_eq_true_eq]
  constructor
  · rintro ⟨i, hi, zero⟩
    exact ⟨_, List.getElem_mem hi, (field hi).1 zero⟩
  · rintro ⟨a, ha, zero⟩
    obtain ⟨i, hi, rfl⟩ := List.getElem_of_mem ha
    exact ⟨i, hi, (field hi).2 zero⟩

/-! ### The checks -/

theorem checkDefineRecipe_inUse {ps : Bytes} (hn : (byteAt ps 0).toNat = n.val) (used : s.recipeUsers n ≠ 0) :
    checkDefineRecipe ps s = .error .inUse := by
  simp only [checkDefineRecipe, recipeOf_eq hn, ok_bind, decide_eq_false used, need_false, error_bind]

/-- What DEFINE RECIPE requires of its actions as given (R80 steps 3 to 6). -/
structure Defines (given : List Action) : Prop where
  nonempty : 1 ≤ given.length
  many : given.length ≤ 16
  bytes : ∀ a ∈ given, a.source < 256 ∧ a.result < 256 ∧ a.repeats < 256
  once : ∀ a ∈ given, a.kind.once = true → a.repeats = 1
  inRange : ∀ a ∈ given, a.taken.inRange = true

/-- The checks of well-formed actions for a free entry come to the last: no result tag is written twice (R80). -/
theorem checkDefineRecipe_eq (free : s.recipeUsers n = 0) (h : Defines given) :
    checkDefineRecipe (recipeParams n given) s =
      if ((given.map Action.taken).flatMap Action.resultTags).Nodup then .ok (n, given.map Action.taken) else .error .range := by
  have entry : recipeOf (byteAt (recipeParams n given) 0) = .ok n := recipeOf_eq (byteOf_toNat (by omega))
  have count : (byteAt (recipeParams n given) 1).toNat = given.length := byteOf_toNat (by have := h.many; omega)
  have read : actionsOf given.length ((recipeParams n given).drop 2) = .ok given := by
    have := actionsOf_reports given [] h.bytes
    rwa [List.append_nil] at this
  have once : (given.all fun a => !a.kind.once || decide (a.repeats = 1)) = true := by
    rw [List.all_eq_true]
    intro a ha
    cases hk : a.kind.once with
    | false => rfl
    | true => exact decide_eq_true (h.once a ha hk)
  have ranges : (given.map Action.taken).all Action.inRange = true := by
    rw [List.all_map, List.all_eq_true]
    exact h.inRange
  simp only [checkDefineRecipe, entry, ok_bind, decide_eq_true free, need_true, count, decide_eq_true h.nonempty,
    decide_eq_true h.many, Bool.and_self, read, once, ranges, expandRecipe_results]
  split
  · next h => rw [decide_eq_true h]; rfl
  · next h => rw [decide_eq_false h]; rfl

end

/-- Well-formed actions in the obligation's own words (R80). -/
theorem defines_of {given : List Action} (h1 : 1 ≤ given.length) (h16 : given.length ≤ 16)
    (fields : ∀ a ∈ given, a.source < 256 ∧ a.result < 256 ∧ a.repeats ≤ 16 ∧ (a.kind = .stamp ∨ a.kind = .outTag → a.repeats = 1))
    (tags : ∀ a ∈ given.map Action.taken,
      a.result + a.repeats ≤ 256 ∧ (a.kind ≠ .stamp → a.kind ≠ .outTag → a.source + a.repeats ≤ 256)) : Defines given where
  nonempty := h1
  many := h16
  bytes a ha := by
    obtain ⟨source, result, few, -⟩ := fields a ha
    exact ⟨source, result, by omega⟩
  once a ha hk := by
    obtain ⟨-, -, -, one⟩ := fields a ha
    exact one ((once_iff _).1 hk)
  inRange a ha := by
    obtain ⟨-, -, few, -⟩ := fields a ha
    obtain ⟨result, source⟩ := tags a.taken (List.mem_map_of_mem ha)
    exact inRange_of (taken_repeats_le few) result source

/-- Settles O38: the entry in use, and well-formed actions by whether a result tag is written twice. -/
theorem defineRecipeWritesEntry : Obligations.DefineRecipeWritesEntry := by
  intro s h n given a hn u taken used tags
  have users : u.recipeUsers n = 0 ↔ ¬used := by
    rw [show u.recipeUsers n = s.recipeUsers n from acceptedState_recipeUsers h s n]
    exact recipeUsers_eq_zero_iff s n
  refine ⟨fun inUse => checks_refuse rfl (by decide) a rfl (checkDefineRecipe_inUse hn fun free => users.1 free inUse), ?_⟩
  intro free h1 h16 params fields ranges
  have checks : checkDefineRecipe h.params u = if tags.Nodup then .ok (n, taken) else .error .range := by
    rw [show h.params = recipeParams n given from params]
    exact checkDefineRecipe_eq (users.2 free) (defines_of h1 h16 fields ranges)
  refine ⟨fun distinct => checks_pass rfl (by decide) a rfl (checks.trans (if_pos distinct)) ?_ rfl,
    fun twice => checks_refuse rfl (by decide) a rfl (checks.trans (if_neg twice))⟩
  have clamped : repeatClamped h.params = true ↔ ∃ a ∈ given, a.repeats = 0 := by
    rw [show h.params = recipeParams n given from params]
    refine repeatClamped_iff h16 fun a ha => ?_
    obtain ⟨-, -, few, -⟩ := fields a ha
    exact few
  have length : taken.length = given.length := List.length_map _
  have instances : (expandRecipe taken).length = tags.length := expandRecipe_length taken
  dsimp only
  rw [length, instances, if_congr clamped rfl rfl]
  rfl

end Sys2Proof.Machine
end

section
/-! Proofs. The reported state of a line and the LINE notices of an event (R101). -/

namespace Sys2Proof.Machine

/-! ### The reported state -/

theorem lineKeyUsable_iff (s : State) (l : LineNo) :
    s.lineKeyUsable l = true ↔
      ∃ n, (s.line l).keySlot = some n ∧ (s.slot n).state = .active ∧
        ((s.slot n).ceiling = 0 ∨ (s.slot n).uses.value < (s.slot n).ceiling) := by
  unfold State.lineKeyUsable
  cases (s.line l).keySlot with
  | none => simp
  | some n => simp [usable_iff]

theorem reported_off_iff (s : State) (l : LineNo) : s.reported l = .off ↔ ¬s.lineKeyUsable l = true := by
  unfold State.reported
  split_ifs with unusable <;> simpa using unusable

theorem reported_barred_iff (s : State) (l : LineNo) :
    s.reported l = .barred ↔ s.lineKeyUsable l = true ∧ (s.line l).barred = true := by
  unfold State.reported
  cases s.lineKeyUsable l with
  | false => simp
  | true => cases (s.line l).barred <;> simp [ite_eq_iff]

theorem reported_faulted_iff (s : State) (l : LineNo) :
    s.reported l = .faulted ↔
      s.lineKeyUsable l = true ∧ (s.line l).barred = false ∧ ((s.line l).faults.link = true ∨ (s.line l).faults.lapses = true) := by
  unfold State.reported
  cases s.lineKeyUsable l with
  | false => simp
  | true => cases (s.line l).barred <;> simp [or_iff_not_imp_left]

theorem reported_ready_iff (s : State) (l : LineNo) :
    s.reported l = .ready ↔
      s.lineKeyUsable l = true ∧ (s.line l).barred = false ∧ (s.line l).faults.link = false ∧ (s.line l).faults.lapses = false := by
  unfold State.reported
  cases s.lineKeyUsable l with
  | false => simp
  | true => cases (s.line l).barred <;> simp

/-! ### The LINE notices of an event -/

theorem NoticesOnly.reported {s t : State} (h : NoticesOnly s t) (l : LineNo) : t.reported l = s.reported l := by
  rw [h]; rfl

/-- The values of the LINE notice of a line (R101, log 33). -/
def lineValues (was s : State) (l : LineNo) : Bytes :=
  let x := s.line l
  [byteOf l.val, (was.reported l).code, (s.reported l).code, if x.barred then 0x01 else 0x00,
    byteOf (x.faults.link.toNat + 2 * x.faults.lapses.toNat), byteOf x.occupied]

/-- The values of a line's notice are those of the event's end: the notices before it change nothing they tell of. -/
theorem offerLine_eq {was s t : State} (h : NoticesOnly s t) (l : LineNo) :
    offerLine l (was.reported l) t = offer .line 0x00 (lineValues was s l) t := by
  have line : t.line l = s.line l := by rw [State.line, h.dispatch]; rfl
  rw [offerLine, h.reported l, line, faultCauses_byte]; rfl

/-- The lines whose reported state an event has changed, in ascending order (R101). -/
def changedLines (was s : State) : List LineNo := (List.finRange 8).filter fun l => decide (was.reported l ≠ s.reported l)

theorem mem_changedLines {was s : State} {l : LineNo} : l ∈ changedLines was s ↔ was.reported l ≠ s.reported l := by
  simp [changedLines]

theorem changedLines_ascending (was s : State) : (changedLines was s).Pairwise fun a b => a.val < b.val :=
  (List.pairwise_lt_finRange 8).filter _

/-- A line unchanged is passed over, and the notices of those before it leave what it reports as it is. -/
theorem foldl_lineNotices {was s t : State} (h : NoticesOnly s t) (ls : List LineNo) :
    ls.foldl (fun t l => if was.reported l = t.reported l then t else offerLine l (was.reported l) t) t =
      (ls.filter fun l => decide (was.reported l ≠ s.reported l)).foldl
        (fun t l => offer .line 0x00 (lineValues was s l) t) t := by
  induction ls generalizing t with
  | nil => rfl
  | cons l ls ih =>
    rw [List.foldl_cons, h.reported l, offerLine_eq h]
    by_cases same : was.reported l = s.reported l
    · rw [if_pos same, List.filter_cons_of_neg (by simp [same])]
      exact ih h
    · rw [if_neg same, List.filter_cons_of_pos (by simp [same]), List.foldl_cons]
      exact ih (h.trans (offer_only _ _ _ t))

theorem lineNotices_eq (was s : State) :
    lineNotices was s = (changedLines was s).foldl (fun t l => offer .line 0x00 (lineValues was s l) t) s :=
  foldl_lineNotices (.refl s) (List.finRange 8)

/-- Settles O18, by the four conditions in their order and by the fold over the changed lines. -/
theorem reportedLineState : Obligations.ReportedLineState := by
  refine ⟨fun s l => ?_, fun was s => ?_, rfl⟩
  · intro x usable
    have key : s.lineKeyUsable l = true ↔ usable := lineKeyUsable_iff s l
    exact ⟨(reported_off_iff s l).trans (not_congr key), (reported_barred_iff s l).trans (and_congr_left' key),
      (reported_faulted_iff s l).trans (and_congr_left' key), (reported_ready_iff s l).trans (and_congr_left' key)⟩
  · exact ⟨changedLines was s, changedLines_ascending was s, fun _ => mem_changedLines, lineNotices_eq was s⟩

end Sys2Proof.Machine
end

section
/-! Proofs. BAR LINE, UNBAR LINE, CLEAR LINE and the production switch (R110, R112, R113, R150). -/

namespace Sys2Proof.Machine

/-- The row of a broadcast that is carried out: the idle timer is started, the gate left as it was (R150, R187). -/
theorem broadcast_row {i : Instr} {rule : OrderRule} {h : OrderInHand} {s u : State} {r : OrderResult} {v : Bytes}
    (hi : orderRule i = some rule) (a : Handles rule h .broadcast s) (hr : r.carriedOut = true) (hu : u.quietQueue)
    (ht : rule.take { number := h.number, custodian := s.order.gate.custodian, params := h.params } s = .answered r v u) :
    ∃ t, exec i s = .next t ∧ AnswersUntagged h r v u.startIdle t := by
  refine ⟨_, exec_order hi s, ?_⟩
  rw [decideOrder_broadcast a, ht, broadcastIdle, if_pos hr]
  exact settle_buildAnswer (quietQueue_of_queue hu (by rw [startIdle_core]))

/-- The LINE notices of an effect and the take after them leave the steps that wait as they are (R32). -/
theorem engineTake_lineNotices_queue (was s : State) : (engineTake (lineNotices was s)).core.queue = s.core.queue := by
  rw [(engineTake_apart _).queue, lineNotices_core]

/-- The orders that name one line refuse a line above 7 (R110, R112). -/
theorem lineOrder_noSuch {i : Instr} {rule : OrderRule} {h : OrderInHand} {s : State}
    (hi : i ∈ [Instr.barLine, .unbarLine, .clearLine]) (hr : orderRule i = some rule) (a : Accepting rule h s)
    (high : 8 ≤ (byteAt h.params 0).toNat) :
    ∃ t, exec i s = .next t ∧ AnswersWith h .noSuch [] (acceptedState h s) t := by
  have refused := lineOf_high high
  simp only [List.mem_cons, List.not_mem_nil, or_false] at hi
  obtain rfl | rfl | rfl := hi
  all_goals
    cases hr
    exact checks_refuse rfl (by decide) a rfl refused

/-- PRODUCTION ON clears the lapses of every line and turns the switch on (R113). -/
def State.producing (s : State) : State := (s.mapLines fun _ x => x.clearLapses).setProduction true

theorem producing_line (s : State) (l : LineNo) : s.producing.line l = (s.line l).clearLapses := mapLines_line s _ l

/-- Settles O40: each order by what it takes; PRODUCTION OFF as a broadcast too. -/
theorem lineStateOrders : Obligations.LineStateOrders := by
  intro s h u
  refine ⟨fun i rule hi hr a high => lineOrder_noSuch hi hr a high, fun l hl => ?_, fun a => ?_, fun a => ?_, fun a => ?_⟩
  · intro x
    have line : u.line l = x := acceptedState_line h s l
    have named := lineOf_eq hl
    rw [← line]
    refine ⟨fun a => ?_, fun a => ?_, fun a => ?_⟩ <;> intro v <;> rw [← (lineNotices_only u v).reported l]
    · exact checks_pass rfl (by decide) a rfl named rfl (by rw [lineNotices_core]; rfl)
    · exact checks_pass rfl (by decide) a rfl named rfl (engineTake_lineNotices_queue u v)
    · exact checks_pass rfl (by decide) a rfl named rfl (engineTake_lineNotices_queue u v)
  · refine ⟨u.producing, fun l => ?_, rfl, ?_⟩
    · rw [producing_line, acceptedState_line]; rfl
    · exact accepted_row rfl a (by decide)
        (quietQueue_of_queue (acceptedState_quiet a) (engineTake_lineNotices_queue u u.producing)) rfl
  · exact accepted_row rfl a (by decide) (quietQueue_of_queue (acceptedState_quiet a) rfl) rfl
  · exact broadcast_row rfl a rfl (quietQueue_of_queue a.decides.quiet rfl) rfl

end Sys2Proof.Machine
end

section
/-! Proofs. SET LINE (R104 to R106) and the group orders (R107 to R109). -/

namespace Sys2Proof.Machine

/-! ### The operands -/

theorem creditOf_eq {b : Byte} (h : b ≠ 0) : creditOf b = .ok (min b.toNat 8) := by
  have nonzero : b.toNat ≠ 0 := fun e => h (BitVec.eq_of_toNat_eq e)
  rw [creditOf, decide_eq_true nonzero, need_true, ok_bind, pure_ok]

theorem groupSetOf_eq {b : Byte} (h : b.toNat < 16) : groupSetOf b = .ok (b.setWidth 4) := by
  rw [groupSetOf, decide_eq_true h, need_true, ok_bind, pure_ok]

/-- A set of groups is reported as it was given (12.2). -/
theorem setWidth_groupSet {b : Byte} (h : b.toNat < 16) : (b.setWidth 4).setWidth 8 = b := by
  refine BitVec.eq_of_toNat_eq ?_
  rw [BitVec.toNat_setWidth, BitVec.toNat_setWidth]
  omega

/-- What a line key slot has to be: none, or a general slot that holds a key of class LINE (steps 2 to 4 of R106). -/
def State.admitsLineKey (s : State) (key : Option SlotNo) : Prop :=
  ∀ n, key = some n → 7 ≤ n.val ∧ (s.slot n).state ≠ .empty ∧ (s.slot n).cls = some .line

theorem acceptedState_admitsLineKey {h : OrderInHand} {s : State} {key : Option SlotNo} (line : s.admitsLineKey key) :
    (acceptedState h s).admitsLineKey key := fun n e => by
  rw [acceptedState_slot]; exact line n e

/-- A line key slot, or none, is read as it was written (R106, 12.2). -/
theorem lineKeyOf_keySlotByte {s : State} {key : Option SlotNo} (h : s.admitsLineKey key) :
    s.lineKeyOf (keySlotByte key) = .ok key := by
  cases key with
  | none => rfl
  | some n =>
    obtain ⟨general, filled, cls⟩ := h n rfl
    have value : (byteOf n.val).toNat = n.val := byteOf_toNat (by omega)
    have named : byteOf n.val ≠ 0xFF := fun e => by
      have := value.symm.trans (congrArg BitVec.toNat e)
      have : n.val = 255 := this
      omega
    simp only [State.lineKeyOf, keySlotByte, if_neg named, generalSlotOf_eq value general, ok_bind, decide_eq_true filled,
      decide_eq_true cls, need_true, pure_ok]

/-! ### The effects -/

theorem setMember_getLsbD (members : BitVec 8) (l m : LineNo) (present : Bool) :
    (setMember members l present).getLsbD m.val = if m = l then present else members.getLsbD m.val := by
  have bit : (BitVec.ofNat 8 (2 ^ l.val)).getLsbD m.val = decide (m = l) := by
    rw [BitVec.getLsbD_ofNat, Nat.testBit_two_pow, decide_eq_true m.isLt, Bool.true_and, decide_eq_decide, Fin.ext_iff, eq_comm]
  cases present with
  | false =>
    simp only [setMember, Bool.false_eq_true, if_false, BitVec.getLsbD_and, BitVec.getLsbD_not, bit, decide_eq_true m.isLt]
    by_cases same : m = l <;> simp [same]
  | true =>
    simp only [setMember, if_true, BitVec.getLsbD_or, bit]
    by_cases same : m = l <;> simp [same]

theorem placeLine_inGroup (s : State) (l m : LineNo) (groups : BitVec 4) (g : GroupNo) :
    (s.placeLine l groups).inGroup g m = if m = l then groups.getLsbD g.val else s.inGroup g m := by
  have group : (s.placeLine l groups).group g = setMember (s.group g) l (groups.getLsbD g.val) := by
    simp [State.placeLine, State.group]
  rw [State.inGroup, group, setMember_getLsbD]; rfl

theorem setGroupKey_line (s : State) (g : GroupNo) (key : Option SlotNo) (l : LineNo) :
    (s.setGroupKey g key).line l = if s.inGroup g l then { s.line l with keySlot := key } else s.line l := mapLines_line s _ l

theorem setGroupCredit_line (s : State) (g : GroupNo) (credit : Nat) (l : LineNo) :
    (s.setGroupCredit g credit).line l = if s.inGroup g l then { s.line l with limit := credit } else s.line l :=
  mapLines_line s _ l

@[simp] theorem acceptedState_group (h : OrderInHand) (s : State) (g : GroupNo) : (acceptedState h s).group g = s.group g := by
  simp [State.group]

@[simp] theorem acceptedState_inGroup (h : OrderInHand) (s : State) (g : GroupNo) (l : LineNo) :
    (acceptedState h s).inGroup g l = s.inGroup g l := by
  simp [State.inGroup]

/-! ### The checks -/

/-- What SET LINE's parameters give a line, a credit limit above 8 taken as 8 (R104, R106). -/
def lineSetting (ps : Bytes) (l : LineNo) (key : Option SlotNo) : LineSetting :=
  { line := l, key := key, credit := min (byteAt ps 2).toNat 8, groups := (byteAt ps 3).setWidth 4 }

theorem checkSetLine_passes {ps : Bytes} {s : State} {l : LineNo} {key : Option SlotNo} (hl : (byteAt ps 0).toNat = l.val)
    (hk : byteAt ps 1 = keySlotByte key) (line : s.admitsLineKey key) (hc : byteAt ps 2 ≠ 0) (hg : (byteAt ps 3).toNat < 16) :
    checkSetLine ps s = .ok (lineSetting ps l key) := by
  simp only [checkSetLine, lineOf_eq hl, hk, lineKeyOf_keySlotByte line, creditOf_eq hc, groupSetOf_eq hg, ok_bind, pure_ok,
    lineSetting]

/-- The group orders refuse a group other than A to D before they read anything else (R107 to R109). -/
theorem groupOrder_range {i : Instr} {rule : OrderRule} {h : OrderInHand} {s : State}
    (hi : i ∈ [Instr.setGroupMembers, .setGroupKey, .setGroupCredit]) (hr : orderRule i = some rule) (a : Accepting rule h s)
    (high : 4 ≤ (byteAt h.params 0).toNat) :
    ∃ t, exec i s = .next t ∧ AnswersWith h .range [] (acceptedState h s) t := by
  have refused := groupOf_high high
  simp only [List.mem_cons, List.not_mem_nil, or_false] at hi
  obtain rfl | rfl | rfl := hi <;> cases hr
  · exact checks_refuse rfl (by decide) a rfl refused
  · exact checks_refuse rfl (by decide) a rfl (by rw [refused, error_bind])
  · exact checks_refuse rfl (by decide) a rfl (by rw [refused, error_bind])

/-- Settles O39: each order by its checks and its effect on the lines and the groups. -/
theorem lineSettingOrders : Obligations.LineSettingOrders := by
  refine ⟨fun s h l key a hl hk line hc hg => ?_, fun s h => ?_⟩
  · intro u credit
    have admits : u.admitsLineKey key := acceptedState_admitsLineKey line
    have told := (lineNotices_only u (applySetting (lineSetting h.params l key) u)).reported l
    refine ⟨applySetting (lineSetting h.params l key) u, _, ?_, fun g m => ?_, rfl, rfl, ?_⟩
    · rw [← acceptedState_line h s l]; rfl
    · have bit : ((byteAt h.params 3).setWidth 4).getLsbD g.val = (byteAt h.params 3).getLsbD g.val := by
        simp
      rw [← bit, ← acceptedState_inGroup h s g m]
      exact placeLine_inGroup _ l m _ g
    · rw [← told, ← setWidth_groupSet hg]
      exact checks_pass rfl (by decide) a rfl (checkSetLine_passes hl hk admits hc hg) rfl
        (engineTake_lineNotices_queue u (applySetting (lineSetting h.params l key) u))
  · intro u
    refine ⟨fun i rule hi hr a high => groupOrder_range hi hr a high, fun g hg =>
      ⟨fun a => ?_, fun key a hk line => ?_, fun a hc => ?_⟩⟩
    all_goals have named := groupOf_eq hg
    · exact checks_pass rfl (by decide) a rfl named rfl (engineTake_apart _).queue
    · have admits : u.admitsLineKey key := acceptedState_admitsLineKey line
      refine ⟨u.setGroupKey g key, fun l => ?_, rfl, ?_⟩
      · rw [setGroupKey_line, acceptedState_inGroup, acceptedState_line]
      · rw [← acceptedState_group h s g]
        refine checks_pass (x := (g, key)) rfl (by decide) a rfl ?_ rfl (engineTake_lineNotices_queue u (u.setGroupKey g key))
        rw [named, ok_bind, show byteAt h.params 1 = _ from hk, lineKeyOf_keySlotByte admits]; rfl
    · intro credit
      refine ⟨u.setGroupCredit g credit, fun l => ?_, rfl, ?_⟩
      · rw [setGroupCredit_line, acceptedState_inGroup, acceptedState_line]
      · rw [← acceptedState_group h s g]
        refine checks_pass (x := (g, credit)) rfl (by decide) a rfl ?_ rfl (engineTake_apart _).queue
        rw [named, ok_bind, creditOf_eq hc]; rfl

end Sys2Proof.Machine
end

section
/-! Proofs. A sealed frame is read back as it was sent, and the length check and the frame check of a receiver (R123, R124). -/

namespace Sys2Proof.Machine

/-! ### Fields of two and four bytes -/

theorem be16_eq (n : Nat) : be16 n = bytesBE 2 n := rfl

theorem be32_eq (n : Nat) : be32 n = bytesBE 4 n := by simp [be32, bytesBE, Nat.div_div_eq_div_mul]

theorem natOfBytes_be16 {n : Nat} (h : n < 65536) : natOfBytes (be16 n) = n := by
  rw [be16_eq, natOfBytes_bytesBE]
  exact Nat.mod_eq_of_lt h

theorem wordOfBytes_be32 (w : Word) : wordOfBytes (be32 w.toNat) = w := by
  have small : w.toNat % 256 ^ 4 = w.toNat := Nat.mod_eq_of_lt w.isLt
  rw [wordOfBytes, be32_eq, natOfBytes_bytesBE, small, BitVec.ofNat_toNat, BitVec.setWidth_eq]

theorem be32_wordOfBytes {bs : Bytes} (h : bs.length = 4) : be32 (wordOfBytes bs).toNat = bs := by
  have small : natOfBytes bs < 2 ^ 32 := by simpa [h] using natOfBytes_lt bs
  rw [wordOfBytes, BitVec.toNat_ofNat, Nat.mod_eq_of_lt small, be32_eq, ← h, bytesBE_natOfBytes]

/-! ### A sealed frame -/

/-- Whatever is sealed passes the frame check (R123, R124 step 2). -/
theorem checkFault_sealFrame (bs : Bytes) : checkFault (sealFrame bs) = false := by
  have cut : (sealFrame bs).length - 4 = bs.length := by simp [sealFrame, be32]
  rw [checkFault, cut, sealFrame, List.take_left, List.drop_left, wordOfBytes_be32, decide_eq_false_iff_not, not_not]

section
variable (kind : Byte) (unit : Nat) (number : Word) (body : Bytes)

/-- A frame as it is sent: its header, its body and their frame check (12.1). -/
def sentFrame : Bytes := sealFrame (frameHeader kind unit body.length number ++ body)

theorem sentFrame_length : (sentFrame kind unit number body).length = body.length + 12 := by
  have header : (frameHeader kind unit body.length number).length = 8 := rfl
  have check (w : Word) : (be32 w.toNat).length = 4 := rfl
  simp only [sentFrame, sealFrame, List.length_append, header, check]
  omega

theorem frameKind_sentFrame : frameKind (sentFrame kind unit number body) = kind := rfl

theorem frameUnit_sentFrame (h : unit < 256) : frameUnit (sentFrame kind unit number body) = unit := byteOf_toNat h

theorem statedLength_sentFrame (h : body.length < 65536) :
    statedLength (sentFrame kind unit number body) = body.length := natOfBytes_be16 h

theorem number_sentFrame : wordOfBytes (sliceBytes (sentFrame kind unit number body) 4 4) = number :=
  wordOfBytes_be32 number

theorem frameBody_sentFrame : frameBody (sentFrame kind unit number body) = body := by
  have rest : (sentFrame kind unit number body).drop 8 =
      body ++ be32 (frameCheck (frameHeader kind unit body.length number ++ body)).toNat := rfl
  rw [frameBody, sliceBytes, sentFrame_length, rest, Nat.add_sub_cancel, List.take_left]

end

/-! ### The length check and the frame check -/

/-- The header's length field, read a byte at a time (12.1). -/
theorem statedLength_eq {f : Bytes} (h : 4 ≤ f.length) :
    statedLength f = 256 * (byteAt f 2).toNat + (byteAt f 3).toNat := by
  match f, h with
  | _ :: _ :: a :: b :: _, _ => simp [statedLength, sliceBytes, natOfBytes, byteAt, Nat.mul_comm]

/-- What fails the length check (R124 step 1). -/
theorem lengthFault_iff (f : Bytes) :
    lengthFault f = true ↔ 1012 < f.length ∨ f.length < 12 ∨
      1000 < 256 * (byteAt f 2).toNat + (byteAt f 3).toNat ∨
      256 * (byteAt f 2).toNat + (byteAt f 3).toNat + 12 ≠ f.length := by
  simp only [lengthFault, Bool.or_eq_true, decide_eq_true_eq]
  by_cases short : f.length < 12
  · simp [short]
  · rw [statedLength_eq (by omega)]
    omega

/-- What fails the frame check (R124 step 2). -/
theorem checkFault_iff {f : Bytes} (h : 4 ≤ f.length) :
    checkFault f = true ↔ f.drop (f.length - 4) ≠ be32 (frameCheck (f.take (f.length - 4))).toNat := by
  have last : (f.drop (f.length - 4)).length = 4 := by rw [List.length_drop]; omega
  rw [checkFault, decide_eq_true_eq, not_iff_not]
  constructor
  · intro agrees
    rw [agrees, be32_wordOfBytes last]
  · intro agrees
    rw [agrees, wordOfBytes_be32]

/-- Settles O14: the fields of a frame that is sent, the two checks, and the register of R123. -/
theorem sealedFrameIsReadBack : Obligations.SealedFrameIsReadBack := by
  refine ⟨fun kind unit number body hu hb => ?_, fun f => ⟨lengthFault_iff f, fun h => checkFault_iff (by omega)⟩, ?_⟩
  · have stated := statedLength_sentFrame kind unit number body (by omega)
    have sound : lengthFault (sentFrame kind unit number body) = false := by
      simp only [lengthFault, stated, sentFrame_length, Bool.or_eq_false_iff, decide_eq_false_iff_not]
      omega
    exact ⟨sound, checkFault_sealFrame _, frameKind_sentFrame .., frameUnit_sentFrame _ _ _ _ hu, stated,
      number_sentFrame .., frameBody_sentFrame ..⟩
  · exact ⟨fun _ => rfl, by decide, by decide +kernel⟩

end Sys2Proof.Machine
end

section
/-! Proofs. The upstream receiver (R124 to R129, R137, R150): the first check that fails decides which flag is set, and a sound
ORDER frame goes to the Order Unit, onward, or both ways. -/

namespace Sys2Proof.Machine

/-! ### The first failing check -/

section
variable {s : State} {frame : Bytes}

theorem upFault_length (h : lengthFault frame = true) : s.upFault frame = some .length := if_pos h

theorem upFault_frameCheck (h1 : lengthFault frame = false) (h2 : checkFault frame = true) :
    s.upFault frame = some .frameCheck := by
  simp [State.upFault, h1, h2]

variable (h1 : lengthFault frame = false) (h2 : checkFault frame = false)
include h1 h2

theorem upFault_kind (hr : byteAt frame 0 ≠ 0x01) (ho : byteAt frame 0 ≠ 0x02) : s.upFault frame = some .kind := by
  simp only [State.upFault, h1, h2, Bool.false_eq_true, if_false]
  exact if_pos ⟨hr, ho⟩

/-- A sound frame of a kind the port takes is judged by its unit address (R124 step 4). -/
theorem upFault_known (h : byteAt frame 0 = 0x01 ∨ byteAt frame 0 = 0x02) :
    s.upFault frame = if s.unitFault frame then some .unit else none := by
  simp only [State.upFault, h1, h2, Bool.false_eq_true, if_false]
  exact if_neg fun c => h.elim c.1 c.2

end

theorem unitFault_record {s : State} {frame : Bytes} (h : byteAt frame 0 = 0x01) :
    s.unitFault frame = decide ((byteAt frame 1).toNat ≠ 31) := if_pos h

/-- The unit address of an ORDER frame (R126, R127). -/
theorem unitFault_order {s : State} {frame : Bytes} (h : byteAt frame 0 = 0x02) :
    s.unitFault frame =
      if (byteAt frame 1).toNat = s.link.address then false
      else if (byteAt frame 1).toNat ≤ 30 then s.link.chainEnd
      else if (byteAt frame 1).toNat = 31 then !broadcastTaken frame
      else true := by
  have order : frameKind frame ≠ kindRecord := by rw [frameKind, h]; decide
  exact if_neg order

theorem broadcastTaken_iff (frame : Bytes) :
    broadcastTaken frame = true ↔
      9 ≤ (frameBody frame).length ∧ (byteAt (frameBody frame) 0 = 0x01 ∨ byteAt (frameBody frame) 0 = 0x38) := by
  simp [broadcastTaken]

/-! ### What the rows do -/

theorem receivesUp_of {s : State} (hm : s.power.supply = .main) (hl : s.link.upLink = true)
    (room : s.link.onwardQueue.length < 8) (free : s.order.hand = none) : s.receivesUp = true := by
  simp [State.receivesUp, State.upstreamReady, State.mainUp, hm, hl, room, free]

/-- A frame that fails a check sets that check's flag, by whichever row it comes (R124; log 30). -/
theorem exec_upstream_fault {s : State} {frame : Bytes} {i : Instr} {f : UpFault}
    (hi : i ∈ [Instr.orderFrame frame, .record frame, .upstreamFrameError frame]) (ready : s.receivesUp = true)
    (h : s.upFault frame = some f) : exec i s = .next (s.flagUp f) := by
  simp only [List.mem_cons, List.not_mem_nil, or_false] at hi
  obtain rfl | rfl | rfl := hi
  · show execOrderFrame frame s = _
    simp [execOrderFrame, ready, h]
  · show execRecord frame s = _
    simp [execRecord, ready, h]
  · show execUpstreamFrameError frame s = _
    simp [execUpstreamFrameError, ready, h]

theorem exec_orderFrame_sound {s : State} {frame : Bytes} (ready : s.receivesUp = true) (h : s.upFault frame = none)
    (kind : byteAt frame 0 = 0x02) : exec (.orderFrame frame) s = .next (classifyOrder frame s) := by
  show execOrderFrame frame s = _
  simp only [execOrderFrame, ready, Bool.not_true, Bool.false_eq_true, if_false, h]
  exact if_pos kind

/-! ### An order that is handed over -/

theorem hold_quiet {s : State} {h : OrderInHand} (hq : s.quietQueue) (hl : ∀ l, h.handling ≠ .loading l) : (s.hold h).quiet :=
  quiet_of hq fun x l hx => by
    obtain rfl : h = x := Option.some.inj hx
    exact hl l

theorem authentication_not_loading (s : State) (header body : Bytes) (l : Load) :
    s.authentication header body ≠ .loading l := by
  unfold State.authentication
  split
  · simp
  · split <;> simp

theorem handUntagged_quiet {s : State} (hq : s.quietQueue) (h : OrderInHand) : (handUntagged h s).quiet := by
  unfold handUntagged
  split
  · exact buildAnswer_quiet hq
  · refine hold_quiet hq fun l => ?_
    dsimp only
    split <;> simp

/-- A hand-over gives the Order Unit no load (R42, R137). -/
theorem handOver_quiet {s : State} (hq : s.quietQueue) (frame : Bytes) (broadcast : Bool) :
    (handOver frame broadcast s).quiet := by
  cases broadcast with
  | true => exact hold_quiet hq (by simp)
  | false =>
    cases hc : s.store.custody with
    | operational => rw [handOver_tagged (.inl hc)]; exact hold_quiet hq (authentication_not_loading s _ _)
    | dormant => rw [handOver_tagged (.inr hc)]; exact hold_quiet hq (authentication_not_loading s _ _)
    | factory => rw [handOver_untagged (.inl hc)]; exact handUntagged_quiet hq _
    | zeroised => rw [handOver_untagged (.inr hc)]; exact handUntagged_quiet hq _

/-! ### The classification -/

section
variable {s : State} {frame : Bytes}

theorem classifyOrder_own (h : (byteAt frame 1).toNat = s.link.address) :
    classifyOrder frame s = settleCore (handOver frame false s) := if_pos h

theorem classifyOrder_onward (h : (byteAt frame 1).toNat ≠ s.link.address) (unit : (byteAt frame 1).toNat ≤ 30) :
    classifyOrder frame s = s.passOnward frame :=
  (if_neg h).trans (if_neg (show ¬(byteAt frame 1).toNat = 31 by omega))

theorem classifyOrder_broadcast (h : (byteAt frame 1).toNat ≠ s.link.address) (all : (byteAt frame 1).toNat = 31) :
    classifyOrder frame s =
      settleCore (handOver frame true (if s.link.chainEnd then s else s.passOnward frame)) :=
  (if_neg h).trans (if_pos all)

end

/-- Settles O43: the checks in order, then the unit address of a sound ORDER frame. -/
theorem upstreamFramesAreClassified : Obligations.UpstreamFramesAreClassified := by
  intro s frame i hi hm hl room free flags queued kind unit body broadcast
  have ready := receivesUp_of hm hl room free
  have fault {f : UpFault} (h : s.upFault frame = some f) : exec i s = .next (s.flagUp f) := exec_upstream_fault hi ready h
  refine ⟨fun h1 => fault (upFault_length h1), fun h1 => ⟨fun h2 => fault (upFault_frameCheck h1 h2), fun h2 =>
    ⟨fun hr ho => fault (upFault_kind h1 h2 hr ho), fun hr hu => ?_, fun ho _ other misfit => ?_, fun e ho hq => ?_⟩⟩⟩
  · refine fault (f := .unit) ?_
    rw [upFault_known h1 h2 (.inl hr), unitFault_record hr, if_pos (decide_eq_true hu)]
  · refine fault (f := .unit) ?_
    have unfit : s.unitFault frame = true := by
      rw [unitFault_order ho, if_neg other]
      obtain beyond | ⟨all, untaken⟩ | ⟨below, last⟩ := misfit
      · rw [if_neg (show ¬unit ≤ 30 by omega), if_neg (show ¬unit = 31 by omega)]
      · have refused : broadcastTaken frame = false := by
          rw [Bool.eq_false_iff, ne_eq, broadcastTaken_iff]
          exact fun taken => untaken ⟨all, taken⟩
        rw [if_neg (show ¬unit ≤ 30 by omega), if_pos all, refused]; rfl
      · rw [if_pos below, last]
    rw [upFault_known h1 h2 (.inr ho), if_pos unfit]
  subst e
  have sound (h : s.unitFault frame = false) : exec (.orderFrame frame) s = .next (classifyOrder frame s) :=
    exec_orderFrame_sound ready (by rw [upFault_known h1 h2 (.inr ho), h]; rfl) ho
  refine ⟨fun own => ⟨_, sound ?_, ?_⟩, fun other below inner => ?_, fun other all => ⟨_, sound ?_, ?_⟩⟩
  · rw [unitFault_order ho, if_pos own]
  · rw [classifyOrder_own own]
    exact settleCore_settles (handOver_quiet hq.1 frame false)
  · rw [sound (by rw [unitFault_order ho, if_neg other, if_pos below, inner]), classifyOrder_onward other below]; rfl
  · obtain ⟨unit31, taken⟩ := all
    rw [unitFault_order ho, if_neg other, if_neg (show ¬unit ≤ 30 by omega), if_pos unit31, (broadcastTaken_iff frame).2 taken]
    rfl
  · obtain ⟨unit31, -⟩ := all
    rw [classifyOrder_broadcast other unit31]
    refine settleCore_settles (handOver_quiet ?_ frame true)
    split
    exacts [hq.1, hq.1]

end Sys2Proof.Machine
end

section
/-! Proofs. The ports: the onward port, the links and the line ports (R111, R115, R122, R129 to R132), and the upstream arbiter (R131,
R137, R174). -/

namespace Sys2Proof.Machine

/-! ### The onward port -/

/-- What a ready onward receiver does with a frame, by the checks of R130 in order. -/
theorem exec_relayFrame {s : State} {frame : Bytes} (hm : s.power.supply = .main) (hl : s.link.onLink = true)
    (room : s.link.relayQueue.length < 8) :
    exec (.relayFrame frame) s = .next
      { s with
        link :=
          if lengthFault frame then { s.link with onFlags := { s.link.onFlags with length := true } }
          else if checkFault frame then { s.link with onFlags := { s.link.onFlags with frameCheck := true } }
          else if byteAt frame 0 ≠ 0x03 ∧ byteAt frame 0 ≠ 0x04 then
            { s.link with onFlags := { s.link.onFlags with kind := true } }
          else { s.link with relayQueue := s.link.relayQueue ++ [frame] } } := by
  have ready : (s.link.onLink && s.onwardReady) = true := by simp [State.onwardReady, State.mainUp, hm, hl, room]
  show execRelayFrame frame s = _
  simp only [execRelayFrame, ready, Bool.not_true, Bool.false_eq_true, if_false]
  split
  · rfl
  · split
    · rfl
    · by_cases kind : byteAt frame 0 ≠ 0x03 ∧ byteAt frame 0 ≠ 0x04
      · rw [if_pos kind]; exact if_pos kind
      · rw [if_neg kind]; exact if_neg kind

/-! ### Transmitters -/

section
variable {s : State} (hm : s.power.supply = .main)
include hm

theorem exec_onwardSendBegin {f : Bytes} {rest : List Bytes} (hl : s.link.onLink = true) (idle : s.link.onTx = none)
    (waits : s.link.onwardQueue = f :: rest) :
    exec .onwardSendBegin s = .next { s with link := { s.link with onwardQueue := rest, onTx := some f } } := by
  show execOnwardSendBegin s = _
  simp [execOnwardSendBegin, waits, State.mainUp, hm, hl, idle]

theorem exec_onwardSendComplete (hl : s.link.onLink = true) (sends : s.link.onTx ≠ none) :
    exec .onwardSendComplete s = .next { s with link := { s.link with onTx := none } } :=
  if_pos ⟨decide_eq_true hm, hl, Option.isSome_iff_ne_none.2 sends⟩

theorem exec_upstreamSendComplete (hl : s.link.upLink = true) (sends : s.link.upTx ≠ none) :
    exec .upstreamSendComplete s = .next { s with link := { s.link with upTx := none } } :=
  if_pos ⟨decide_eq_true hm, hl, Option.isSome_iff_ne_none.2 sends⟩

/-! ### The line ports -/

variable {l : LineNo}

theorem exec_lineSendBegin (hl : (s.line l).linkUp = true) (idle : (s.line l).sending = false)
    (waits : (s.line l).transmit ≠ []) :
    exec (.lineSendBegin l) s = .next (s.setLine l { s.line l with begun := true, sending := true }) :=
  if_pos ⟨decide_eq_true hm, hl, idle, waits⟩

theorem exec_lineSendComplete (hl : (s.line l).linkUp = true) (sends : (s.line l).sending = true) :
    exec (.lineSendComplete l) s =
      .next (s.setLine l { s.line l with transmit := (s.line l).transmit.tail, begun := false, sending := false }) :=
  if_pos ⟨decide_eq_true hm, hl, sends⟩

theorem exec_lineLinkLoss (hl : (s.line l).linkUp = true) :
    exec (.lineLinkLoss l) s =
      .next (settleCore (lineNotices s
        (s.setLine l { s.line l with
          linkUp := false, sending := false, faults := { (s.line l).faults with link := true } }))) := by
  show execLineLinkLoss l s = _
  simp [execLineLinkLoss, State.mainUp, hm, hl]

theorem exec_lineLinkRestore (hl : (s.line l).linkUp = false) :
    exec (.lineLinkRestore l) s =
      .next (settleUnit (lineNotices s
        (s.setLine l { s.line l with linkUp := true, faults := { (s.line l).faults with link := false } }))) := by
  show execLineLinkRestore l s = _
  simp [execLineLinkRestore, State.mainUp, hm, hl]

end

/-- The change of a line's record and its LINE notices give no load to the Order Unit or the Core (R42). -/
theorem lineNotices_setLine_quiet {s : State} (h : s.quiet) (l : LineNo) (x : Line) : (lineNotices s (s.setLine l x)).quiet :=
  quiet_of_core_order h (by simp) (by simp)

/-- Settles O45, row by row. -/
theorem portsMoveFrames : Obligations.PortsMoveFrames := by
  refine ⟨fun s => ⟨fun frame hm hl room => ?_, fun f rest hm hl idle waits => exec_onwardSendBegin hm hl idle waits,
    fun hm hl sends => exec_onwardSendComplete hm hl sends, fun hm hl sends => exec_upstreamSendComplete hm hl sends,
    rfl, rfl, rfl, rfl⟩, fun s l hm => ?_⟩
  · have relayed := exec_relayFrame (frame := frame) hm hl room
    refine ⟨fun h1 => ?_, fun h1 h2 => ?_, fun h1 h2 h3 h4 => ?_, fun h1 h2 h3 => ?_⟩
    · rw [relayed, if_pos h1]
    · rw [relayed, h1, if_neg Bool.false_ne_true, if_pos h2]
    · rw [relayed, h1, h2, if_neg Bool.false_ne_true, if_neg Bool.false_ne_true, if_pos ⟨h3, h4⟩]
    · rw [relayed, h1, h2, if_neg Bool.false_ne_true, if_neg Bool.false_ne_true,
        if_neg fun c => h3.elim c.1 c.2]
  · intro x
    exact ⟨fun hl idle waits => exec_lineSendBegin hm hl idle waits, fun hl sends => exec_lineSendComplete hm hl sends,
      fun hl hq => ⟨_, exec_lineLinkLoss hm hl, settleCore_settles (lineNotices_setLine_quiet hq l _)⟩,
      fun hl hq => ⟨_, exec_lineLinkRestore hm hl, settleUnit_settles (lineNotices_setLine_quiet hq l _)⟩⟩

/-! ### The upstream arbiter -/

/-- The arbiter sends from the source it chooses, or does nothing when no source has a frame (R131). -/
theorem exec_upstreamTransmitChoice {s : State} (hm : s.power.supply = .main) (hl : s.link.upLink = true)
    (idle : s.link.upTx = none) :
    exec .upstreamTransmitChoice s =
      .next (s.upstreamChoice.elim s fun c => s.transmitFrom c.1 c.2) := by
  show execUpstreamTransmitChoice s = _
  rw [execUpstreamTransmitChoice, if_pos ⟨decide_eq_true hm, hl, idle⟩]
  cases s.upstreamChoice <;> rfl

theorem waitingFrame_notice_iff (s : State) (f : Bytes) :
    s.waitingFrame .notice = some f ↔
      ∃ n rest tag, s.report.notices = n :: rest ∧ n.tag = .ready tag ∧ noticeFrame n.message tag = f := by
  cases hq : s.report.notices with
  | nil => simp [State.waitingFrame, hq]
  | cons n rest => cases ht : n.tag <;> simp [State.waitingFrame, hq, ht]

/-- No notice waits while the oldest has no tag (R174). -/
theorem waitingFrame_notice_eq_none {s : State} (h : ¬∃ n rest tag, s.report.notices = n :: rest ∧ n.tag = .ready tag) :
    s.waitingFrame .notice = none := by
  rw [Option.eq_none_iff_forall_ne_some]
  intro f hf
  obtain ⟨n, rest, tag, hn, ht, -⟩ := (waitingFrame_notice_iff s f).1 hf
  exact h ⟨n, rest, tag, hn, ht⟩

theorem waitingFrame_relay_eq_none {s : State} (h : ¬s.link.relayQueue ≠ []) : s.waitingFrame .relay = none := by
  simp [State.waitingFrame, not_not.1 h]

theorem waitingFrame_answer_eq_none {s : State} (h : ¬s.order.answer ≠ none) : s.waitingFrame .answer = none := not_not.1 h

/-- When a source is chosen, by the source served last: at once after its predecessor `q` in the rotation, past an
empty `q` after `p`, and past both when it was itself served last (R131). -/
theorem upstreamChoice_of_turn {s : State} {src p q : Source} {f : Bytes} (rotation : src.after = [p, q, src])
    (waits : s.waitingFrame src = some f)
    (turn : s.link.served = q ∨ (s.link.served = p ∧ s.waitingFrame q = none) ∨
      (s.link.served = src ∧ s.waitingFrame p = none ∧ s.waitingFrame q = none)) :
    s.upstreamChoice = some (src, f) := by
  have after_q : q.after = [src, p, q] := by cases src <;> cases rotation <;> rfl
  have after_p : p.after = [q, src, p] := by cases src <;> cases rotation <;> rfl
  unfold State.upstreamChoice
  obtain last | ⟨last, noQ⟩ | ⟨last, noP, noQ⟩ := turn
  · simp [last, after_q, waits]
  · simp [last, after_p, noQ, waits]
  · simp [last, rotation, noP, noQ, waits]

theorem upstreamChoice_eq_none {s : State} (h : ∀ src, s.waitingFrame src = none) : s.upstreamChoice = none := by
  simp [State.upstreamChoice, h]

/-- Settles O46: each source has its turn after the others, and with no frame waiting nothing is sent. -/
theorem upstreamArbiterRotates : Obligations.UpstreamArbiterRotates := by
  intro s hm hl idle answerWaits noticeWaits relayWaits gives last
  have choice := exec_upstreamTransmitChoice hm hl idle
  have sends {src : Source} {f : Bytes} (h : s.upstreamChoice = some (src, f)) : gives (s.transmitFrom src f) :=
    choice.trans (by rw [h, Option.elim_some])
  have noAnswer : ¬answerWaits → s.waitingFrame .answer = none := waitingFrame_answer_eq_none
  have noNotice : ¬noticeWaits → s.waitingFrame .notice = none := waitingFrame_notice_eq_none
  have noRelay : ¬relayWaits → s.waitingFrame .relay = none := waitingFrame_relay_eq_none
  refine ⟨fun f waits turn => ?_, fun n rest tag oldest ready turn => ?_, fun f rest oldest turn => ?_,
    fun hAnswer hNotice hRelay => ?_⟩
  · exact sends (upstreamChoice_of_turn (src := .answer) rfl waits
      (turn.imp_right (.imp (.imp_right noRelay) (.imp_right (.imp noNotice noRelay)))))
  · have waits : s.waitingFrame .notice = some (noticeFrame n.message tag) :=
      (waitingFrame_notice_iff s _).2 ⟨n, rest, tag, oldest, ready, rfl⟩
    have sent := sends (upstreamChoice_of_turn rfl waits
      (turn.imp_right (.imp (.imp_right noAnswer) (.imp_right (.imp noRelay noAnswer)))))
    rwa [State.transmitFrom, State.leaveSource, oldest] at sent
  · have waits : s.waitingFrame .relay = some f := by simp [State.waitingFrame, oldest]
    have sent := sends (upstreamChoice_of_turn rfl waits
      (turn.imp_right (.imp (.imp_right noNotice) (.imp_right (.imp noAnswer noNotice)))))
    rwa [State.transmitFrom, State.leaveSource, oldest] at sent
  · refine choice.trans ?_
    rw [upstreamChoice_eq_none fun src => by
      cases src
      exacts [noAnswer hAnswer, noNotice hNotice, noRelay hRelay], Option.elim_none]

end Sys2Proof.Machine
end

section
/-! Proofs. The catalogue of orders (7.8, R143, R189). -/

namespace Sys2Proof.Machine

/-! ### The custody states that pass an order -/

theorem passWorking_eq (c : Custody) : passWorking c = [Custody.operational].contains c := by cases c <;> rfl
theorem passReads_eq (c : Custody) : passReads c = [Custody.operational, .dormant].contains c := by cases c <;> rfl
theorem passFactory_eq (c : Custody) : passFactory c = [Custody.factory].contains c := by cases c <;> rfl
theorem passAll_eq (c : Custody) : passAll c = [Custody.factory, .operational, .dormant, .zeroised].contains c := by cases c <;> rfl

theorem passAck_eq (c : Custody) : passAck c = [Custody.operational, .zeroised].contains c := by cases c <;> rfl

/-! ### The rows -/

/-- A row of the catalogue: the order's code, parameter length, class, and the custody states that pass it. -/
abbrev CatalogueRow := Instr × Byte × Nat × OrderClass × List Custody

/-- The row's instruction has a rule, which is of that code alone, that length, that class and those custody states. -/
def CatalogueRow.Ruled (e : CatalogueRow) : Prop :=
  ∃ rule, orderRule e.1 = some rule ∧ rule.known = true ∧ (∀ b, rule.matching b = (b == e.2.1)) ∧
    (∀ ps, rule.fits ps = decide (ps.length = e.2.2.1)) ∧ rule.cls = e.2.2.2.1 ∧
    ∀ c, rule.passed c = e.2.2.2.2.contains c

/-- An order with a fixed number of parameter bytes has the row its rule is made of. -/
theorem ruled_of_knownOrder {i : Instr} {code : Byte} {width : Nat} {cls : OrderClass} {passed : Custody → Bool}
    {take : OrderArgs → State → Taken} {states : List Custody} (hi : orderRule i = some (knownOrder code width cls passed take))
    (hp : ∀ c, passed c = states.contains c) : CatalogueRow.Ruled (i, code, width, cls, states) :=
  ⟨_, hi, rfl, fun _ => rfl, fun _ => rfl, rfl, hp⟩

section
variable {i : Instr} {code : Byte} {width : Nat} {cls : OrderClass} {take : OrderArgs → State → Taken}

theorem ruled_working (hi : orderRule i = some (knownOrder code width cls passWorking take)) :
    CatalogueRow.Ruled (i, code, width, cls, [.operational]) := ruled_of_knownOrder hi passWorking_eq

theorem ruled_reads (hi : orderRule i = some (knownOrder code width cls passReads take)) :
    CatalogueRow.Ruled (i, code, width, cls, [.operational, .dormant]) := ruled_of_knownOrder hi passReads_eq

theorem ruled_factory (hi : orderRule i = some (knownOrder code width cls passFactory take)) :
    CatalogueRow.Ruled (i, code, width, cls, [.factory]) := ruled_of_knownOrder hi passFactory_eq

theorem ruled_all (hi : orderRule i = some (knownOrder code width cls passAll take)) :
    CatalogueRow.Ruled (i, code, width, cls, [.factory, .operational, .dormant, .zeroised]) := ruled_of_knownOrder hi passAll_eq

end

/-- The unknown order is that of a code which 12.4 does not list (R140). -/
theorem unknownRule_matching_iff (b : Byte) : unknownRule.matching b = true ↔ b ∉ knownCodes := by
  simp [unknownRule]

/-- A code is none of 12.4's exactly when it is none of the rows' with a fixed length, and not DEFINE RECIPE's. -/
theorem not_mem_knownCodes_iff (b : Byte) : b ∉ knownCodes ↔ b ∉ knownCodes.erase 0x28 ∧ b ≠ 0x28 := by
  have distinct : knownCodes.Nodup := by decide
  have listed : (0x28 : Byte) ∈ knownCodes := by decide
  rw [distinct.mem_erase_iff]
  rcases eq_or_ne b 0x28 with rfl | other
  · exact iff_of_false (not_not.2 listed) fun h => h.2 rfl
  · simp only [ne_eq, other, not_false_eq_true, true_and, and_true]

/-- Settles O20: each row by the rule of its instruction, and the rows' codes as those of 12.4 but for DEFINE RECIPE's. -/
theorem orderCatalogue : Obligations.OrderCatalogue := by
  unfold Obligations.OrderCatalogue
  intro all reads work entries
  have rows : ∀ e ∈ entries, CatalogueRow.Ruled e := by
    simp only [entries, List.forall_mem_append, List.forall_mem_cons, List.not_mem_nil, false_implies, implies_true, and_true]
    exact
      ⟨⟨⟨ruled_all rfl, ruled_reads rfl, ruled_factory rfl, ruled_factory rfl, ruled_factory rfl, ruled_working rfl,
          ruled_working rfl, ruled_working rfl, ruled_working rfl, ruled_working rfl, ruled_working rfl, ruled_working rfl,
          ruled_working rfl, ruled_reads rfl, ruled_reads rfl, ruled_reads rfl, ruled_of_knownOrder rfl passAck_eq⟩,
        ruled_working rfl, ruled_working rfl, ruled_working rfl, ruled_working rfl, ruled_working rfl, ruled_working rfl,
          ruled_working rfl, ruled_reads rfl, ruled_reads rfl, ruled_working rfl, ruled_working rfl, ruled_working rfl,
          ruled_working rfl, ruled_working rfl, ruled_working rfl, ruled_working rfl, ruled_working rfl, ruled_working rfl,
          ruled_reads rfl, ruled_reads rfl⟩,
        ruled_working rfl, ruled_working rfl, ruled_working rfl, ruled_working rfl, ruled_all rfl, ruled_working rfl,
          ruled_working rfl, ruled_working rfl, ruled_working rfl⟩
  have codes : knownCodes.erase 0x28 = entries.map fun e => e.2.1 := rfl
  refine ⟨rows, rfl, fun _ => rfl, fun _ => rfl, rfl, passWorking_eq, rfl, fun b => ?_⟩
  rw [unknownRule_matching_iff, not_mem_knownCodes_iff, codes, List.mem_map, not_exists]
  simp [eq_comm]

end Sys2Proof.Machine
end

section
/-! Proofs. The checks at the decision of an order (R138 to R141, R150) and the gate (R146, R147). -/

namespace Sys2Proof.Machine

/-! ### Orders that are not accepted -/

@[simp] theorem endDecisionStep_link (s : State) (h : OrderInHand) : (s.endDecisionStep h).link = s.link := by
  rw [endDecisionStep_only]

/-- Settles O22: the answer is built untagged, at once, on the unit with the flag set. -/
theorem unacceptedOrderChangesNothing : Obligations.UnacceptedOrderChangesNothing := by
  intro i rule h s hi u answered
  rw [← endDecisionStep_link s h]
  exact ⟨fun d => ⟨_, exec_order hi s, decideOrder_badTag d⟩, fun d => ⟨_, exec_order hi s, decideOrder_stale d⟩⟩

/-! ### Refusals -/

section
variable {i : Instr} {rule : OrderRule} {h : OrderInHand} {s : State} {r : OrderResult}

theorem custodyRefusal_ne_done (c : Custody) : custodyRefusal c ≠ .done := by cases c <;> decide

/-- An accepted order that steps 1 to 3 of R140 refuse. -/
theorem accepted_unscreened (hi : orderRule i = some rule) (d : Decides rule h .accepted s) (hr : r ≠ .done)
    (e : rule.screen h s = .error r) : ∃ t, exec i s = .next t ∧ AnswersWith h r [] (acceptedState h s) t :=
  ⟨_, exec_order hi s, decideOrder_checks d (by rw [e, error_bind]) hr⟩

/-- An accepted order that the gate refuses (R140 step 4). -/
theorem accepted_ungated (hi : orderRule i = some rule) (d : Decides rule h .accepted s) (e : rule.screen h s = .ok ())
    (hg : s.order.gate.satisfies h.number rule.cls = false) :
    ∃ t, exec i s = .next t ∧ AnswersWith h .gate [] (acceptedState h s) t :=
  ⟨_, exec_order hi s, decideOrder_checks d (by rw [e, ok_bind, hg, need_false]) (by decide)⟩

/-- An order handled untagged, or a broadcast, that its verdict refuses: nothing but the answer, and the idle timer is not started
(R141, R150, R187). -/
theorem bare_unscreened {st : Standing} (hi : orderRule i = some rule) (hst : st = .untagged ∨ st = .broadcast)
    (d : Decides rule h st s) (e : rule.verdict h s = .error r) :
    ∃ t, exec i s = .next t ∧ AnswersUntagged h r [] (s.endDecisionStep h) t := by
  obtain ⟨main, hand, code, standing, quiet⟩ := d
  have up : s.mainUp = true := decide_eq_true main
  have custody : (s.endDecisionStep h).store.custody = s.store.custody := by rw [endDecisionStep_store]
  have quiet' := quietQueue_of_queue quiet (endDecisionStep_queue s h)
  refine ⟨_, exec_order hi s, ?_⟩
  simp only [decideOrder, hand, up, code, standing, Bool.not_true, Bool.or_self, Bool.false_eq_true, if_false]
  rcases hst with rfl | rfl
  · rw [takeUntagged, (verdict_custody custody).trans e]
    exact settle_buildAnswer quiet'
  · rw [verdict_screen standing (by decide)] at e
    rw [takeBroadcast, (screen_custody custody).trans e]
    exact settle_buildAnswer quiet'

/-- An order met without a tag has no step of its own to end (R141, R150). -/
theorem endDecisionStep_untagged (hx : h.handling = .untagged) : s.endDecisionStep h = s := by
  simp only [State.endDecisionStep, hx]

/-- An order that has neither a tag nor a screening behind it and is refused by steps 1 to 3 of R140. -/
theorem untagged_or_broadcast_unscreened (hi : orderRule i = some rule) (hx : h.handling = .untagged)
    (d : Decides rule h .untagged s ∨ Decides rule h .broadcast s) (e : rule.screen h s = .error r) :
    ∃ t, exec i s = .next t ∧ AnswersUntagged h r [] s t := by
  have verdict : rule.verdict h s = .error r := by simp only [OrderRule.verdict, hx, e]
  have bare : ∃ t, exec i s = .next t ∧ AnswersUntagged h r [] (s.endDecisionStep h) t := by
    rcases d with d | d
    · exact bare_unscreened hi (.inl rfl) d verdict
    · exact bare_unscreened hi (.inr rfl) d verdict
  rwa [endDecisionStep_untagged hx] at bare

end

/-- The verdict is that of steps 1 to 3, or was given when the order was handed over (R141). -/
theorem verdict_cases (rule : OrderRule) (h : OrderInHand) (s : State) :
    rule.verdict h s = .ok () ∨ rule.verdict h s = rule.screen h s := by
  unfold OrderRule.verdict
  cases h.handling with
  | screened | checking => exact .inl rfl
  | _ => exact .inr rfl

/-- An unknown order handled untagged is NO SUCH, whether or not it was screened before a zeroisation (R140). -/
theorem unknownOrder_untagged {s : State} {h : OrderInHand} (d : Decides unknownRule h .untagged s) :
    ∃ t, exec .unknownOrderCode s = .next t ∧ AnswersUntagged h .noSuch [] (s.endDecisionStep h) t := by
  rcases verdict_cases unknownRule h s with passed | screened
  · exact untagged_refused rfl ⟨d, passed⟩ rfl
  · exact bare_unscreened rfl (.inl rfl) d (screened.trans (screen_unknown rfl))

/-! ### The gate -/

theorem satisfies_single_iff (g : Gate) (number : Word) :
    g.satisfies number .single = true ↔ ∃ rest x, g.grants = rest ++ [x] ∧ x.target = number := by
  unfold Gate.satisfies
  cases e : g.grants.getLast? with
  | none => simp [List.getLast?_eq_none_iff.1 e]
  | some x =>
    obtain ⟨rest, e⟩ := List.getLast?_eq_some_iff.1 e
    simp [e]

theorem satisfies_dual_iff (g : Gate) (number : Word) :
    g.satisfies number .dual = true ↔
      ∃ a b, g.grants = [a, b] ∧ a.target = number ∧ b.target = number ∧ a.custodian ≠ b.custodian := by
  obtain ⟨grants, deadline⟩ := g
  match grants with
  | [] | [_] | _ :: _ :: _ :: _ => simp [Gate.satisfies]
  | [a, b] => simp [Gate.satisfies, and_assoc]

/-- Settles O23: each refusal by the first check that fails, and the gate by its classes. -/
theorem acceptedOrderIsChecked : Obligations.AcceptedOrderIsChecked := by
  refine ⟨fun i rule h s hi d => ?_, fun s h => ⟨fun d => ?_, unknownOrder_untagged⟩, fun i rule h s hi hx d => ?_,
    fun g number => ?_⟩
  · exact ⟨fun hk => accepted_unscreened hi d (by decide) (screen_unknown hk),
      fun hk hf => accepted_unscreened hi d (by decide) (screen_misfit hk hf),
      fun hk hf hp => accepted_unscreened hi d (custodyRefusal_ne_done _) (screen_not_admitted hk hf hp),
      accepted_ungated hi d⟩
  · exact accepted_unscreened rfl d (by decide) (screen_unknown rfl)
  · exact ⟨fun hk => untagged_or_broadcast_unscreened hi hx d (screen_unknown hk),
      fun hk hf => untagged_or_broadcast_unscreened hi hx d (screen_misfit hk hf),
      fun hk hf hp => untagged_or_broadcast_unscreened hi hx d (screen_not_admitted hk hf hp)⟩
  · exact ⟨rfl, rfl, satisfies_single_iff g number, satisfies_dual_iff g number⟩

end Sys2Proof.Machine
end

section
/-! Proofs. GRANT (R145, R148). -/

namespace Sys2Proof.Machine

section
variable {s u : State} {h : OrderInHand} {a : OrderArgs} {r : OrderResult} {v : Bytes}

/-- An accepted GRANT that does not enter the gate empties it (R148). -/
theorem grant_refused (hx : Accepting grantRule h s)
    (ht : takeGrant { number := h.number, custodian := s.order.gate.custodian, params := h.params } (acceptedState h s) =
      .answered r [] (acceptedState h s)) (hr : r ≠ .done) :
    ∃ t, exec .grant s = .next t ∧ AnswersWith h r [] (acceptedState h s) t := by
  refine ⟨_, exec_order rfl s, ?_⟩
  have taken : grantRule.take { number := h.number, custodian := s.order.gate.custodian, params := h.params } (acceptedState h s) =
    .answered r [] (acceptedState h s) := ht
  rw [decideOrder_accepted hx, taken, dealWithGate, if_neg fun e => hr e.2]
  exact settle_buildAnswer (quietQueue_of_queue (acceptedState_quiet hx) rfl)

/-- An accepted GRANT that enters the gate leaves it as its own rule does (R148). -/
theorem grant_entered (hx : Accepting grantRule h s)
    (ht : takeGrant { number := h.number, custodian := s.order.gate.custodian, params := h.params } (acceptedState h s) =
      .answered .done v u) (hu : u.core.queue = (acceptedState h s).core.queue) :
    ∃ t, exec .grant s = .next t ∧ SettlesTo (buildAnswer h .done v false u) t := by
  refine ⟨_, exec_order rfl s, ?_⟩
  have taken : grantRule.take { number := h.number, custodian := s.order.gate.custodian, params := h.params } (acceptedState h s) =
    .answered .done v u := ht
  rw [decideOrder_accepted hx, taken, dealWithGate, if_pos ⟨rfl, rfl⟩]
  exact settle_buildAnswer (quietQueue_of_queue (acceptedState_quiet hx) hu)

/-! ### Its own rule -/

theorem takeGrant_range (low : (wordAt a.params 1).toNat ≤ a.number.toNat) : takeGrant a s = .answered .range [] s := by
  have check : decide (a.number < wordAt a.params 1) = false := decide_eq_false (by rw [BitVec.lt_def]; omega)
  simp only [takeGrant, check, need_false, error_bind, checked_error]

theorem takeGrant_sameCustodian (above : a.number.toNat < (wordAt a.params 1).toNat)
    (stands : ∃ g ∈ s.order.gate.grants, g.custodian = (byteAt a.params 0).toNat) :
    takeGrant a s = .answered .sameCustodian [] s := by
  have check : decide (a.number < wordAt a.params 1) = true := decide_eq_true (BitVec.lt_def.2 above)
  have same : (s.order.gate.grants.all fun g => decide (g.custodian ≠ (byteAt a.params 0).toNat)) = false := by
    simpa using stands
  simp only [takeGrant, check, same, need_true, need_false, ok_bind, checked_error]

theorem takeGrant_enters (above : a.number.toNat < (wordAt a.params 1).toNat)
    (other : ∀ g ∈ s.order.gate.grants, g.custodian ≠ (byteAt a.params 0).toNat) :
    takeGrant a s =
      let t := s.appendGrant { custodian := (byteAt a.params 0).toNat, target := wordAt a.params 1, accepted := s.time.millis }
      .answered .done (grantList t.order.gate.grants) t := by
  have check : decide (a.number < wordAt a.params 1) = true := decide_eq_true (BitVec.lt_def.2 above)
  have differs : (s.order.gate.grants.all fun g => decide (g.custodian ≠ (byteAt a.params 0).toNat)) = true := by
    simpa using other
  simp only [takeGrant, check, differs, need_true, ok_bind, checked_ok]

end

/-- A gate that holds at most two grants drops its older one when it holds two (R144, R145). -/
theorem appendGrant_of_length {s : State} (g : Grant) (h : s.order.gate.grants.length ≤ 2) :
    s.appendGrant g =
      { s with
        order := { s.order with
          gate := {
            grants := (if s.order.gate.grants.length = 2 then s.order.gate.grants.tail else s.order.gate.grants) ++ [g]
            deadline := some (s.time.millis + 60000) } } } := by
  have full : 2 ≤ s.order.gate.grants.length ↔ s.order.gate.grants.length = 2 := by omega
  simp only [State.appendGrant, full, State.after]
  rfl

/-- Settles O26: the two refusals, then the grant in the gate. -/
theorem grantEntersGate : Obligations.GrantEntersGate := by
  intro s h a target custodian u
  refine ⟨fun low => grant_refused a (takeGrant_range low) (by decide), fun above stands => ?_, fun above other two => ?_⟩
  · rw [← acceptedState_order h s] at stands
    exact grant_refused a (takeGrant_sameCustodian above stands) (by decide)
  · rw [← acceptedState_order h s] at other two ⊢
    rw [← acceptedState_time h s]
    refine grant_entered a ((takeGrant_enters above other).trans ?_) rfl
    rw [appendGrant_of_length _ two]; rfl

end Sys2Proof.Machine
end

section
/-! Proofs. The status summary and the alarm output (R176, R179, R190). -/

namespace Sys2Proof.Machine

/-! ### Bits -/

/-- A list of bits read as a number has the bits of the list, the first of them the most significant. -/
theorem testBit_bits (bs : List Bool) (i : Nat) (h : i < bs.length) :
    (bs.foldl (fun a (b : Bool) => 2 * a + b.toNat) 0).testBit (bs.length - 1 - i) = bs[i] := by
  induction bs using List.reverseRecOn with
  | nil => exact absurd h (Nat.not_lt_zero i)
  | append_singleton bs b ih =>
    rw [List.foldl_append, List.foldl_cons, List.foldl_nil, List.length_append, List.length_singleton, Nat.add_sub_cancel]
    by_cases last : i = bs.length
    · subst last
      rw [Nat.sub_self, List.getElem_concat_length rfl]
      cases b <;> simp [Nat.testBit_zero, Nat.add_mod]
    · have inner : i < bs.length := by simp at h; omega
      have place : bs.length - i = bs.length - 1 - i + 1 := by omega
      have half (n : Nat) : (2 * n + b.toNat) / 2 = n := by
        have := Bool.toNat_lt b
        omega
      rw [List.getElem_append_left inner, place, Nat.testBit_succ, half]
      exact ih inner

/-- The bit of a condition's place in the status summary (R190). -/
theorem summary_getLsbD {s : State} {i : Nat} {c : Condition} (h : Condition.all[i]? = some c) :
    s.summary.getLsbD (15 - i) = s.holds c := by
  obtain ⟨hi, rfl⟩ := List.getElem?_eq_some_iff.1 h
  have bit := testBit_bits (Condition.all.map s.holds) i (by rwa [List.length_map])
  rw [List.getElem_map] at bit
  rw [State.summary, bits16, BitVec.getLsbD_ofNat, ← bit, decide_eq_true (by omega), Bool.true_and]
  rfl

/-- A mask leaves some bit exactly when a bit stands that it does not cover. -/
theorem unmasked_iff (x m : BitVec 16) : x &&& ~~~m ≠ 0 ↔ ∃ k, k < 16 ∧ x.getLsbD k = true ∧ m.getLsbD k = false := by
  constructor
  · intro nonzero
    by_contra covered
    refine nonzero (BitVec.eq_of_getLsbD_eq fun k hk => ?_)
    simp only [not_exists, not_and, Bool.not_eq_false] at covered
    rw [BitVec.getLsbD_and, BitVec.getLsbD_not, decide_eq_true hk, Bool.true_and]
    cases bit : x.getLsbD k with
    | false => exact (BitVec.getLsbD_zero).symm
    | true => rw [covered k hk bit]; exact (BitVec.getLsbD_zero).symm
  · rintro ⟨k, hk, stands, unmasked⟩ zero
    have bit : (x &&& ~~~m).getLsbD k = (0 : BitVec 16).getLsbD k := by rw [zero]
    rw [BitVec.getLsbD_and, BitVec.getLsbD_not, stands, unmasked, decide_eq_true hk] at bit
    exact absurd bit (by simp)

/-- The alarm output is asserted while main power is up and a condition that is not masked holds (R179). -/
theorem alarmOutput_iff (s : State) :
    s.alarmOutput = true ↔
      s.power.supply = .main ∧
        ∃ i c, Condition.all[i]? = some c ∧ s.holds c = true ∧ s.report.alarmMask.getLsbD (15 - i) = false := by
  rw [State.alarmOutput, State.mainUp, Bool.and_eq_true, decide_eq_true_eq, decide_eq_true_eq, unmasked_iff]
  refine and_congr_right' ⟨fun ⟨k, hk, stands, unmasked⟩ => ?_, fun ⟨i, c, hc, holds, unmasked⟩ => ?_⟩
  · have listed : 15 - k < Condition.all.length := by simp [Condition.all]; omega
    have place : 15 - (15 - k) = k := by omega
    refine ⟨15 - k, Condition.all[15 - k], List.getElem?_eq_getElem listed, ?_, by rwa [place]⟩
    rwa [← summary_getLsbD (List.getElem?_eq_getElem listed), place]
  · exact ⟨15 - i, by omega, (summary_getLsbD hc).trans holds, unmasked⟩

/-! ### When each condition holds -/

theorem any_toList_iff {α : Type} {n : Nat} (xs : Vector α n) (p : α → Bool) :
    xs.toList.any p = true ↔ ∃ i : Fin n, p xs[i.val] = true := by
  rw [Vector.any_toList, Vector.any_eq_true]
  exact ⟨fun ⟨i, hi, h⟩ => ⟨⟨i, hi⟩, h⟩, fun ⟨i, h⟩ => ⟨i.val, i.isLt, h⟩⟩

theorem any_slot_iff (s : State) (p : Slot → Bool) : s.store.slots.toList.any p = true ↔ ∃ n, p (s.slot n) = true :=
  any_toList_iff _ p

theorem any_line_iff (s : State) (p : Line → Bool) : s.dispatch.lines.toList.any p = true ↔ ∃ l, p (s.line l) = true :=
  any_toList_iff _ p

theorem any_sensor_iff (s : State) (p : Sensor → Bool) : s.tamper.sensors.toList.any p = true ↔ ∃ i, p (s.sensor i) = true :=
  any_toList_iff _ p

theorem portFlags_any_iff (f : PortFlags) : f.any = true ↔ f ≠ ⟨false, false, false⟩ := by
  obtain ⟨a, b, c⟩ := f
  revert a b c
  decide

theorem upFlags_any_iff (f : UpFlags) : f.any = true ↔ f ≠ ⟨false, false, false, false, false, false⟩ := by
  obtain ⟨a, b, c, d, e, g⟩ := f
  revert a b c d e g
  decide

section
variable (s : State)

theorem holds_lineFault_iff : s.holds .lineFault = true ↔ ∃ l, s.reported l = .faulted := by
  simp [State.holds]

theorem holds_lineLapse_iff : s.holds .lineLapse = true ↔ ∃ l, (s.line l).consecutive ≠ 0 := by
  simp only [State.holds, any_line_iff, decide_eq_true_eq]

theorem holds_runHeld_iff : s.holds .runHeld = true ↔ ∃ r ∈ s.runs.table, r.state = .held := by
  simp only [State.holds, List.any_eq_true, decide_eq_true_eq]

theorem holds_overspoil_iff :
    s.holds .overspoil = true ↔ ∃ r ∈ s.runs.table, r.state ≠ .closed ∧ r.holds.overspoil = true := by
  simp only [State.holds, List.any_eq_true, Bool.and_eq_true, decide_eq_true_eq]

theorem holds_keyDamaged_iff : s.holds .keyDamaged = true ↔ ∃ n, (s.slot n).state = .damaged := by
  simp only [State.holds, any_slot_iff, decide_eq_true_eq]

theorem holds_keySpent_iff :
    s.holds .keySpent = true ↔
      ∃ n, (s.slot n).state = .active ∧ (s.slot n).ceiling ≠ 0 ∧ (s.slot n).uses.value = (s.slot n).ceiling := by
  simp only [State.holds, any_slot_iff, spent_iff]

theorem holds_storeSuspended_iff : s.holds .storeSuspended = true ↔ ∃ i : SensorNo, s.store.suspend[i.val] = true :=
  any_toList_iff _ id

theorem holds_dormant_iff : s.holds .dormant = true ↔ s.store.custody = .dormant := decide_eq_true_iff

theorem holds_tamper_iff :
    s.holds .tamper = true ↔
      s.tamper.record ≠ [] ∨ s.tamper.overflow.value ≠ 0 ∨
        ∃ i, (s.sensor i).alarmMasked = false ∧ (s.sensor i).status = .qualifying := by
  simp only [State.holds, Bool.or_eq_true, any_sensor_iff, Bool.and_eq_true, Bool.not_eq_true', decide_eq_true_eq,
    List.isEmpty_eq_false_iff, or_assoc]

theorem holds_cabinetOpen_iff :
    s.holds .cabinetOpen = true ↔ s.tamper.window ≠ none ∨ ((s.sensor 0).enable = true ∧ (s.sensor 0).active = true) := by
  simp only [State.holds, Bool.or_eq_true, Bool.and_eq_true, Option.isSome_iff_ne_none]

theorem holds_settling_iff : s.holds .settling = true ↔ s.power.settling ≠ none := Option.isSome_iff_ne_none

theorem holds_storeBusy_iff :
    s.holds .storeBusy = true ↔ s.store.scrub ≠ none ∨ s.store.verify ≠ none ∨ s.store.verifyWaits = true := by
  simp only [State.holds, State.busy, Bool.or_eq_true, Option.isSome_iff_ne_none, or_assoc]

theorem holds_noticesLost_iff : s.holds .noticesLost = true ↔ s.report.lost.value ≠ 0 := decide_eq_true_iff

theorem holds_linkError_iff :
    s.holds .linkError = true ↔
      s.link.upFlags ≠ ⟨false, false, false, false, false, false⟩ ∨ s.link.onFlags ≠ ⟨false, false, false⟩ ∨
        ∃ l, (s.line l).flags ≠ ⟨false, false, false⟩ := by
  simp only [State.holds, Bool.or_eq_true, any_line_iff, upFlags_any_iff, portFlags_any_iff, or_assoc]

theorem holds_countLimit_iff :
    s.holds .countLimit = true ↔
      (∃ n, (s.slot n).uses.limit = true) ∨ (∃ r ∈ s.runs.table, r.duplicates.limit = true ∨ r.late.limit = true) ∨
        (∃ l, (s.line l).lapses.limit = true ∨ (s.line l).strays.limit = true ∨ (s.line l).rejects.limit = true ∨
          (s.line l).late.limit = true) ∨
        s.tamper.overflow.limit = true ∨ s.tamper.events.limit = true ∨ s.report.lost.limit = true ∨
        s.time.seconds.limit = true := by
  simp only [State.holds, State.countLimit, Line.limitFlag, Bool.or_eq_true, any_slot_iff, any_line_iff]
  simp only [List.any_eq_true, Bool.or_eq_true, or_assoc]

theorem holds_commissioning_iff : s.holds .commissioning = true ↔ s.store.custody = .factory := decide_eq_true_iff

end

end Sys2Proof.Machine
end

section
/-! Proofs. STATUS (R175, R177) in each of its standings, and what it tells (R176, R179). -/

namespace Sys2Proof.Machine

/-! ### The answer and the Core's sharing -/

theorem endDecisionStep_sharing (s : State) (h : OrderInHand) : s.endDecisionStep h = s.sharing (s.endDecisionStep h).core s.free :=
  endDecisionStep_only s h

/-- An answer does not depend on the Core's sharing. -/
theorem buildAnswer_sharing (h : OrderInHand) (r : OrderResult) (v : Bytes) (z : Bool) (s : State) (c : CipherCore) (f : Nat) :
    buildAnswer h r v z (s.sharing c f) = (buildAnswer h r v z s).sharing c f := by
  unfold buildAnswer
  rw [show (s.sharing c f).activeKey 0 = s.activeKey 0 from rfl,
    show (s.sharing c f).answerMessage h r v = s.answerMessage h r v from rfl]
  cases (if z then none else s.activeKey 0) with
  | none => rfl
  | some key => rfl

theorem settlesTo_sharing {s t : State} {c : CipherCore} {f : Nat} (h : SettlesTo (s.sharing c f) t) : SettlesTo s t := h

theorem answersUntagged_sharing {h : OrderInHand} {r : OrderResult} {v : Bytes} {s t : State} {c : CipherCore} {f : Nat}
    (k : AnswersUntagged h r v (s.sharing c f) t) : AnswersUntagged h r v s t := by
  rw [AnswersUntagged, buildAnswer_sharing] at k
  exact settlesTo_sharing k

/-! ### Its own rule -/

/-- The notices-lost counter cleared when the flag says so (R175, R177). -/
def State.clearLostIf (clear : Bool) (s : State) : State := if clear then s.clearLost else s

theorem clearLostIf_core (clear : Bool) (s : State) : (s.clearLostIf clear).core = s.core := by cases clear <;> rfl

theorem clearLostIf_sharing (clear : Bool) (s : State) (c : CipherCore) (f : Nat) :
    (s.sharing c f).clearLostIf clear = (s.clearLostIf clear).sharing c f := by cases clear <;> rfl

section
variable {a : OrderArgs} {s : State}

theorem takeStatus_reports {clear : Bool} (h : byteAt a.params 0 = flagByte clear) :
    takeStatus a s = .answered .done (statusReport s) (s.clearLostIf clear) := by
  rw [takeStatus, h, flagOf_flagByte, checked_ok]; rfl

theorem flagOf_other {b : Byte} (h : 2 ≤ b.toNat) : flagOf b = .error .range := by
  have not0 : b ≠ 0 := by rintro rfl; exact absurd h (by decide)
  have not1 : b ≠ 1 := by rintro rfl; exact absurd h (by decide)
  rw [flagOf, if_neg not0, if_neg not1]

theorem takeStatus_range (h : 2 ≤ (byteAt a.params 0).toNat) : takeStatus a s = .answered .range [] s := by
  rw [takeStatus, flagOf_other h, checked_error]

end

/-- The row of a broadcast that its own checks refuse: the idle timer is not started (R150, R152, R187). -/
theorem broadcast_refused {i : Instr} {rule : OrderRule} {h : OrderInHand} {s : State} {r : OrderResult}
    (hi : orderRule i = some rule) (a : Handles rule h .broadcast s) (hr : r.carriedOut = false)
    (ht : rule.take { number := h.number, custodian := s.order.gate.custodian, params := h.params } s = .answered r [] s) :
    ∃ t, exec i s = .next t ∧ AnswersUntagged h r [] s t := by
  refine ⟨_, exec_order hi s, ?_⟩
  rw [decideOrder_broadcast a, ht, broadcastIdle, hr]
  exact settle_buildAnswer a.decides.quiet

section
variable {s : State} {h : OrderInHand}

theorem status_accepted {clear : Bool} (hf : byteAt h.params 0 = flagByte clear) (a : Accepting statusRule h s) :
    ∃ t, exec .status s = .next t ∧
      AnswersWith h .done (statusReport (acceptedState h s)) ((acceptedState h s).clearLostIf clear) t :=
  accepted_row rfl a (by decide) (quietQueue_of_queue (acceptedState_quiet a) (by rw [clearLostIf_core])) (takeStatus_reports hf)

theorem status_untagged {clear : Bool} (hf : byteAt h.params 0 = flagByte clear) (a : Handles statusRule h .untagged s) :
    ∃ t, exec .status s = .next t ∧ AnswersUntagged h .done (statusReport s) (s.clearLostIf clear) t := by
  obtain ⟨t, run, answer⟩ := untagged_row (i := .status) rfl a
    (quietQueue_of_queue (endDecisionStep_quiet a) (by rw [clearLostIf_core])) (takeStatus_reports hf)
  rw [endDecisionStep_sharing, clearLostIf_sharing] at answer
  exact ⟨t, run, answersUntagged_sharing answer⟩

theorem status_broadcast {clear : Bool} (hf : byteAt h.params 0 = flagByte clear) (a : Handles statusRule h .broadcast s) :
    ∃ t, exec .status s = .next t ∧ AnswersUntagged h .done (statusReport s) (s.clearLostIf clear).startIdle t :=
  broadcast_row rfl a rfl (quietQueue_of_queue a.decides.quiet (by rw [clearLostIf_core])) (takeStatus_reports hf)

theorem status_untagged_range (hf : 2 ≤ (byteAt h.params 0).toNat) (a : Handles statusRule h .untagged s) :
    ∃ t, exec .status s = .next t ∧ AnswersUntagged h .range [] s t := by
  obtain ⟨t, run, answer⟩ := untagged_refused (i := .status) rfl a (takeStatus_range hf)
  rw [endDecisionStep_sharing] at answer
  exact ⟨t, run, answersUntagged_sharing answer⟩

end

/-- Settles O25: STATUS in each of its standings; the places and the meaning of the conditions; the alarm output. -/
theorem statusReports : Obligations.StatusReports := by
  refine ⟨fun s h clear hf => ?_, fun s h hf => ⟨fun a => ?_, fun a => ?_⟩, fun s => ?_⟩
  · exact ⟨status_accepted hf, status_untagged hf, status_broadcast hf⟩
  · exact accepted_refused rfl (by decide) a (takeStatus_range hf)
  · rcases a with a | a
    · exact status_untagged_range hf a
    · exact broadcast_refused rfl a rfl (takeStatus_range hf)
  · exact ⟨fun i c => summary_getLsbD, alarmOutput_iff s, holds_lineFault_iff s, holds_lineLapse_iff s, holds_runHeld_iff s,
      holds_overspoil_iff s, holds_keyDamaged_iff s, holds_keySpent_iff s, holds_storeSuspended_iff s, holds_dormant_iff s,
      holds_tamper_iff s, holds_cabinetOpen_iff s, holds_settling_iff s, holds_storeBusy_iff s, holds_noticesLost_iff s,
      holds_linkError_iff s, holds_countLimit_iff s, holds_commissioning_iff s⟩

end Sys2Proof.Machine
end

section
/-! Proofs. What a trip does (R156, R157): the event entered and told, then the sensor's action: a suspension, the scrub begun anew, or
a zeroisation (R27), each with the abort of the record in the engine where it has one (R96). -/

namespace Sys2Proof.Machine

/-! ### The abort of the record in the engine -/

/-- The abort of the record that the engine held in `s`, made in the unit `u` (R96). -/
def abortsOf (s u : State) : State :=
  match s.engine with
  | none => u
  | some w => failRecord w .aborted u.discardEngineStep

theorem abortsOf_of_engine {s u : State} (h : u.engine = s.engine) (x : State) : abortsOf u x = abortsOf s x := by
  simp only [abortsOf, h]

theorem abortRecord_of_engine {s u : State} (h : u.engine = s.engine) : abortRecord u = abortsOf s u := by
  cases hs : s.engine <;> simp only [abortRecord, abortsOf, h, hs]

/-- The parts of the unit that the abort of its record reaches (R95, R96). -/
theorem abortsOf_only {s u : State} (h : u.engine = s.engine) :
    ∃ (table : List Run) (report : ReportUnit) (lines : Vector Line 8) (core : CipherCore),
      abortsOf s u =
        { u with
          engine := none, dispatch := { u.dispatch with lines := lines }, runs := { u.runs with table := table }
          report := report, core := core } := by
  unfold abortsOf
  cases hw : s.engine with
  | none =>
    refine ⟨u.runs.table, u.report, u.dispatch.lines, u.core, ?_⟩
    dsimp only
    rw [← hw, ← h]
  | some w =>
    obtain ⟨table, report, failed⟩ := failRecord_only w .aborted u.discardEngineStep
    exact ⟨table, report, _, _, failed⟩

section
variable {s u : State} (h : u.engine = s.engine)
include h

theorem abortsOf_engine : (abortsOf s u).engine = none := by
  obtain ⟨table, report, lines, core, only⟩ := abortsOf_only h
  rw [only]

theorem abortsOf_store : (abortsOf s u).store = u.store := by
  obtain ⟨table, report, lines, core, only⟩ := abortsOf_only h
  rw [only]

theorem abortsOf_power : (abortsOf s u).power = u.power := by
  obtain ⟨table, report, lines, core, only⟩ := abortsOf_only h
  rw [only]

theorem abortsOf_order : (abortsOf s u).order = u.order := by
  obtain ⟨table, report, lines, core, only⟩ := abortsOf_only h
  rw [only]

end

/-! ### The steps that a zeroisation gives up -/

/-- A Core of which the steps of the given users are given up: those that wait leave the queue, one in progress runs on for nobody
(R33). -/
structure GivesUp (given : KsUser → Prop) (c d : CipherCore) : Prop where
  engine : d.engineWaits = c.engineWaits
  order : d.queue.Sublist c.queue
  queue : ∀ k, k ∈ d.queue ↔ k ∈ c.queue ∧ ¬given k.user
  work : ∀ k x, c.work = .keyStore k x →
    (given k.user → d.work = .keyStore k true) ∧ (¬given k.user → d.work = .keyStore k x)
  other : (∀ k x, c.work ≠ .keyStore k x) → d.work = c.work

theorem GivesUp.none {given : KsUser → Prop} (h : ∀ u, ¬given u) (c : CipherCore) : GivesUp given c c :=
  ⟨rfl, .refl _, fun k => by simp [h k.user], fun k _ e => ⟨fun hk => absurd hk (h k.user), fun _ => e⟩, fun _ => rfl⟩

/-- The users of two rounds of giving up are those of either. -/
theorem GivesUp.trans {p q r : KsUser → Prop} {a b c : CipherCore} (h : GivesUp p a b) (k : GivesUp q b c)
    (hr : ∀ u, r u ↔ p u ∨ q u) : GivesUp r a c where
  engine := k.engine.trans h.engine
  order := k.order.trans h.order
  queue j := by rw [k.queue, h.queue, hr, not_or, and_assoc]
  work j x e := by
    obtain ⟨dropped, stays⟩ := h.work j x e
    by_cases hp : p j.user
    · refine ⟨fun _ => ?_, fun hn => absurd ((hr _).2 (.inl hp)) hn⟩
      obtain ⟨again, still⟩ := k.work j true (dropped hp)
      by_cases hq : q j.user
      exacts [again hq, still hq]
    · obtain ⟨later, still⟩ := k.work j x (stays hp)
      exact ⟨fun hg => later (((hr _).1 hg).resolve_left hp), fun hn => still fun hq => hn ((hr _).2 (.inr hq))⟩
  other e := by
    have same := h.other e
    exact (k.other fun j x => by rw [same]; exact e j x).trans same

theorem discardUser_givesUp (s : State) (u : KsUser) : GivesUp (· = u) s.core (s.discardUser u).core where
  engine := rfl
  order := List.filter_sublist
  queue k := by simp [State.discardUser]
  work k x e := by
    simp only [State.discardUser, e]
    exact ⟨fun h => by simp [h], fun h => by simp [h]⟩
  other e := by
    unfold State.discardUser
    dsimp only
    split
    · next k x hw => exact absurd hw (e k x)
    · rfl

/-- The users whose steps a zeroisation gives up: a verify, the comparison of the order in hand, the check of its LOAD CLEAR (R27,
R140). -/
def State.givenUp (s : State) (u : KsUser) : Prop :=
  u = .verify ∨ (u = .order ∧ ∃ h n j, s.order.hand = some h ∧ h.handling = .comparing n j) ∨
    (u = .load ∧ ∃ h key, s.order.hand = some h ∧ h.handling = .checking key)

theorem dropOrderStep_givesUp (s : State) :
    GivesUp (fun u => (u = .order ∧ ∃ h n j, s.order.hand = some h ∧ h.handling = .comparing n j) ∨
      (u = .load ∧ ∃ h key, s.order.hand = some h ∧ h.handling = .checking key)) s.core s.dropOrderStep.core := by
  unfold State.dropOrderStep
  cases hh : s.order.hand with
  | none => exact GivesUp.none (by simp) _
  | some h =>
    cases hx : h.handling with
    | comparing n j => simpa [hx] using discardUser_givesUp s .order
    | checking key => simpa [hx] using discardUser_givesUp s .load
    | untagged | screened | unmatched | loading | answering | answered =>
      simp only [Option.map_some, hx]
      exact GivesUp.none (by simp [hx]) _

/-! ### Zeroisation -/

/-- The unit zeroised, with this Run Table and this Core, before the LINE notices and the abort (R27, R28, R181). -/
def State.zeroised (s : State) (table : List Run) (core : CipherCore) : State :=
  { s with
    store := { s.store with
      slots := Vector.replicate 64 (Slot.blank false), custody := .zeroised, lastOrder := 0,
      suspend := Vector.replicate 6 false, scrub := some .zeroise, verify := none, working := Vector.replicate 64 false }
    power := { s.power with
      idle := none, batteryZeroised := if decide (s.power.supply = .main) then s.power.batteryZeroised else true }
    order := { s.order with
      gate := { grants := [], deadline := none }, hand := s.order.hand.map OrderInHand.afterZeroise }
    core := core
    runs := { s.runs with table := table } }

theorem zeroiseStore_zeroised (s : State) :
    markBattery ((zeroiseStore (zeroiseOrder s)).setCustody .zeroised) =
      s.zeroised s.runs.table (zeroiseStore (zeroiseOrder s)).core := by
  have only : zeroiseOrder s =
      { s with
        core := s.dropOrderStep.core
        order := { s.order with
          gate := { grants := [], deadline := none }, hand := s.order.hand.map OrderInHand.afterZeroise } } := by
    rw [zeroiseOrder_eq]
    unfold State.dropOrderStep
    split <;> rfl
  rw [only]
  cases hp : s.power.supply <;> simp [markBattery, zeroiseStore, State.setCustody, State.discardUser, State.zeroised, hp]

theorem zeroiseStore_givesUp (s : State) : GivesUp s.givenUp s.core (zeroiseStore (zeroiseOrder s)).core := by
  have dropped : (zeroiseOrder s).core = s.dropOrderStep.core := by rw [zeroiseOrder_eq]; rfl
  exact (dropOrderStep_givesUp s).trans (dropped ▸ discardUser_givesUp (zeroiseOrder s) .verify) fun u => or_comm

/-- What a zeroisation makes of a run: KEY when the run named a slot that was emptied (R27, R46; log 21). -/
def State.tellsRun (s : State) (r y : Run) : Prop :=
  (s.losesKey r → y = { r with holds := { r.holds with key := true }, state := if r.state = .live then .held else r.state }) ∧
    (¬s.losesKey r → y = r)

theorem tellsRun_of_store {s u : State} (h : u.store = s.store) : u.tellsRun = s.tellsRun := by
  funext r y
  simp only [State.tellsRun, State.losesKey, State.loses, State.slot, h]

theorem givenUp_of_hand {s u : State} (h : u.order.hand = s.order.hand) : u.givenUp = s.givenUp := by
  funext k
  simp only [State.givenUp, h]

/-- What a line reports depends on the dispatch unit and the slots alone (R101). -/
theorem reported_of_store {s u : State} (hd : u.dispatch = s.dispatch) (hs : u.store = s.store) (l : LineNo) :
    u.reported l = s.reported l := by
  unfold State.reported State.lineKeyUsable State.line State.slot
  rw [hd, hs]

/-- A zeroisation, part by part (R27). -/
theorem zeroise_eq (s : State) :
    ∃ table core, List.Forall₂ s.tellsRun s.runs.table table ∧ GivesUp s.givenUp s.core core ∧
      zeroise s = abortsOf s (lineNotices s (s.zeroised table core)) := by
  let core := (zeroiseStore (zeroiseOrder s)).core
  obtain ⟨table, reported, runs⟩ := reportZeroised_runs s (s.zeroised s.runs.table core)
  refine ⟨table, core, runs, zeroiseStore_givesUp s, ?_⟩
  have told : zeroise s = abortRecord (lineNotices s (s.zeroised table core)) := by
    unfold zeroise
    dsimp only
    rw [zeroiseStore_zeroised, reported]
    rfl
  rw [told, abortRecord_of_engine]
  exact lineNotices_engine ..

/-! ### The event entered and told -/

/-- The entry of a sensor's trip in the tamper record (R163). -/
def State.tripEntry (s : State) (i : SensorNo) : TamperEntry :=
  { source := .sensor i, seconds := s.time.seconds.value,
    millis := if decide (s.power.supply = .main) then some (s.time.millis.setWidth 16) else none,
    action := (s.sensor i).action, before := s.store.custody }

/-- The Tamper Monitor with a trip entered or counted, on battery in the battery-trip count too (R156, R163, R167). -/
def State.tripEntered (s : State) (i : SensorNo) : TamperMonitor :=
  let room := decide (s.tamper.record.length < 8)
  { s.tamper with
    record := if room then s.tamper.record ++ [s.tripEntry i] else s.tamper.record
    overflow := if room then s.tamper.overflow else bumpCounter 255 s.tamper.overflow
    events := bumpCounter 255 s.tamper.events
    batteryTrips :=
      if decide (s.power.supply = .main) then s.tamper.batteryTrips else bumpCounter 255 s.tamper.batteryTrips }

/-- The unit with a trip entered, the gate emptied and the TAMPER notice offered, before the action (R156; log 35). -/
def tripTold (i : SensorNo) (s : State) : State :=
  offer .tamper (byteOf i.val)
    ([byteOf i.val, (s.sensor i).action.code] ++ be32 s.time.seconds.value ++ be16 (s.time.millis.toNat % 65536) ++
      [s.store.custody.code, if decide (s.tamper.record.length < 8) then 0x01 else 0x00])
    { s with tamper := s.tripEntered i, order := { s.order with gate := { grants := [], deadline := none } } }

theorem enterTamper_trip (i : SensorNo) (s : State) :
    (s.enterTamper (.sensor i) (s.sensor i).action).countBatteryTrip = { s with tamper := s.tripEntered i } := by
  cases hp : s.power.supply <;>
    simp [State.enterTamper, State.countBatteryTrip, State.tripEntered, State.tripEntry, State.mainUp, hp, max8]

/-- A trip is the sensor's action on the unit told of the event (R156). -/
theorem trip_told (i : SensorNo) (s : State) : trip i s = applyAction i (tripTold i s) := by
  unfold trip
  dsimp only
  rw [enterTamper_trip]
  rfl

section
variable (i : SensorNo) (s : State)

@[simp] theorem tripTold_store : (tripTold i s).store = s.store := offer_store ..
@[simp] theorem tripTold_core : (tripTold i s).core = s.core := offer_core ..
@[simp] theorem tripTold_runs : (tripTold i s).runs = s.runs := offer_runs ..
@[simp] theorem tripTold_recipes : (tripTold i s).recipes = s.recipes := offer_recipes ..
@[simp] theorem tripTold_engine : (tripTold i s).engine = s.engine := offer_engine ..
@[simp] theorem tripTold_dispatch : (tripTold i s).dispatch = s.dispatch := offer_dispatch ..
@[simp] theorem tripTold_link : (tripTold i s).link = s.link := offer_link ..
@[simp] theorem tripTold_tamper : (tripTold i s).tamper = s.tripEntered i := offer_tamper ..
@[simp] theorem tripTold_time : (tripTold i s).time = s.time := offer_time ..
@[simp] theorem tripTold_power : (tripTold i s).power = s.power := offer_power ..

@[simp] theorem tripTold_order :
    (tripTold i s).order = { s.order with gate := { grants := [], deadline := none } } := offer_order ..

@[simp] theorem tripTold_sensor (j : SensorNo) : (tripTold i s).sensor j = s.sensor j := by
  rw [State.sensor, tripTold_tamper]; rfl

end

theorem tripTold_sensors (i : SensorNo) (s : State) : (tripTold i s).tamper.sensors = s.tamper.sensors := by
  rw [tripTold_tamper]; rfl

/-- The tripping sensor's record written into the unit so told. -/
theorem tripTold_setSensor (i : SensorNo) (s : State) (x : Sensor) :
    (tripTold i s).setSensor i x =
      { tripTold i s with
        tamper := { (tripTold i s).tamper with sensors := s.tamper.sensors.set i.val x }
        store := s.store } := by
  have store := tripTold_store i s
  have sensors := tripTold_sensors i s
  generalize tripTold i s = t at *
  rw [← store, ← sensors]
  rfl

/-- The zeroisation of the unit so told, beside its notices in terms of the unit before (R27). -/
theorem tripTold_zeroised (i : SensorNo) (s : State) (x : Sensor) (table : List Run) (core : CipherCore) :
    ((tripTold i s).setSensor i x).zeroised table core =
      { tripTold i s with
        tamper := { (tripTold i s).tamper with sensors := s.tamper.sensors.set i.val x }
        store := (s.zeroised table core).store
        power := (s.zeroised table core).power
        order := { (tripTold i s).order with hand := s.order.hand.map OrderInHand.afterZeroise }
        core := core
        runs := { s.runs with table := table } } := by
  have store := tripTold_store i s
  have sensors := tripTold_sensors i s
  have power := tripTold_power i s
  have runs := tripTold_runs i s
  have hand : (tripTold i s).order.hand = s.order.hand := by rw [tripTold_order]
  have gate : (tripTold i s).order.gate = { grants := [], deadline := none } := by rw [tripTold_order]
  generalize tripTold i s = t at *
  unfold State.zeroised
  rw [← store, ← sensors, ← power, ← runs, ← hand, ← gate]
  rfl

/-! ### The action -/

section
variable {s : State} {i : SensorNo}

theorem tripped_suspend {x : Sensor} (h : x.action = .suspend) :
    x.tripped = { x with status := (if x.mode = .transient then .tripped else .latched), timer := none } := by
  cases hm : x.mode <;> simp [Sensor.tripped, h, hm]

theorem tripped_zeroise {x : Sensor} (h : x.action = .zeroise) : x.tripped = { x with status := .latched, timer := none } := by
  simp [Sensor.tripped, h]

/-- A trip of a suspending sensor (R157). -/
theorem trip_suspend (h : (s.sensor i).action = .suspend) :
    trip i s = abortsOf s (((tripTold i s).setSensor i (s.sensor i).tripped).setCause i true) := by
  rw [trip_told]
  unfold applyAction
  dsimp only
  rw [tripTold_sensor, h]
  exact abortRecord_of_engine (tripTold_engine i s)

/-- A trip of a zeroising sensor in ZEROISED (R28, R157). -/
theorem trip_rescrub (h : (s.sensor i).action = .zeroise) (hz : s.store.custody = .zeroised) :
    trip i s = scrubAgain ((tripTold i s).setSensor i (s.sensor i).tripped) := by
  rw [trip_told]
  unfold applyAction
  dsimp only
  rw [tripTold_sensor, h, tripTold_store]
  exact if_pos hz

/-- A trip of a zeroising sensor outside ZEROISED (R27, R157). -/
theorem trip_zeroise (h : (s.sensor i).action = .zeroise) (hz : s.store.custody ≠ .zeroised) :
    ∃ table core, List.Forall₂ s.tellsRun s.runs.table table ∧ GivesUp s.givenUp s.core core ∧
      trip i s =
        abortsOf s (lineNotices s (((tripTold i s).setSensor i (s.sensor i).tripped).zeroised table core)) := by
  let u := (tripTold i s).setSensor i (s.sensor i).tripped
  have action : trip i s = zeroise u := by
    rw [trip_told]
    unfold applyAction
    dsimp only
    rw [tripTold_sensor, h, tripTold_store]
    exact if_neg hz
  have store : u.store = s.store := tripTold_store i s
  have core : u.core = s.core := tripTold_core i s
  have runs : u.runs = s.runs := tripTold_runs i s
  have engine : u.engine = s.engine := tripTold_engine i s
  have hand : u.order.hand = s.order.hand := (congrArg OrderUnit.hand (tripTold_order i s) :)
  have dispatch : u.dispatch = s.dispatch := tripTold_dispatch i s
  obtain ⟨table, given, told, kept, zeroised⟩ := zeroise_eq u
  rw [tellsRun_of_store store, runs] at told
  rw [givenUp_of_hand hand, core] at kept
  refine ⟨table, given, told, kept, ?_⟩
  calc trip i s = zeroise u := action
    _ = abortsOf u (lineNotices u (u.zeroised table given)) := zeroised
    _ = abortsOf s (lineNotices s (u.zeroised table given)) := by
      rw [lineNotices_was (reported_of_store dispatch store), abortsOf_of_engine engine]

end

/-! ### What each trip leaves -/

/-- The unit after any trip: the Tamper Monitor with the event entered and the sensor tripped, the gate empty; the clocks, the links, the
recipes and the Staging Queue as they were (R156, R157). -/
structure TripLeaves (i : SensorNo) (s t : State) : Prop where
  tamper : t.tamper = { s.tripEntered i with sensors := s.tamper.sensors.set i.val (s.sensor i).tripped }
  gate : t.order.gate = { grants := [], deadline := none }
  time : t.time = s.time
  link : t.link = s.link
  recipes : t.recipes = s.recipes
  staging : t.runs.staging = s.runs.staging

theorem TripLeaves.notices {i : SensorNo} {s u : State} (k : TripLeaves i s u) (was : State) : TripLeaves i s (lineNotices was u) := by
  rw [lineNotices_only was u]
  exact ⟨k.tamper, k.gate, k.time, k.link, k.recipes, k.staging⟩

theorem TripLeaves.aborted {i : SensorNo} {s u : State} (k : TripLeaves i s u) (h : u.engine = s.engine) :
    TripLeaves i s (abortsOf s u) := by
  obtain ⟨table, report, lines, core, only⟩ := abortsOf_only h
  rw [only]
  exact ⟨k.tamper, k.gate, k.time, k.link, k.recipes, k.staging⟩

section
variable (i : SensorNo) (s : State)

theorem tripTold_leaves : TripLeaves i s ((tripTold i s).setSensor i (s.sensor i).tripped) where
  tamper := by rw [State.setSensor, tripTold_tamper]; rfl
  gate := by rw [setSensor_order, tripTold_order]
  time := tripTold_time i s
  link := tripTold_link i s
  recipes := tripTold_recipes i s
  staging := by rw [setSensor_runs, tripTold_runs]

theorem trip_leaves : TripLeaves i s (trip i s) := by
  have told := tripTold_leaves i s
  have engine := tripTold_engine i s
  cases ha : (s.sensor i).action with
  | suspend =>
    rw [trip_suspend ha]
    exact .aborted ⟨told.tamper, told.gate, told.time, told.link, told.recipes, told.staging⟩ engine
  | zeroise =>
    by_cases hz : s.store.custody = .zeroised
    · rw [trip_rescrub ha hz]
      exact ⟨told.tamper, told.gate, told.time, told.link, told.recipes, told.staging⟩
    · obtain ⟨table, core, -, -, zeroised⟩ := trip_zeroise ha hz
      rw [zeroised]
      have emptied : TripLeaves i s (((tripTold i s).setSensor i (s.sensor i).tripped).zeroised table core) :=
        ⟨told.tamper, rfl, told.time, told.link, told.recipes, told.staging⟩
      exact (emptied.notices s).aborted ((lineNotices_engine ..).trans engine)

@[simp] theorem trip_sensor_self : (trip i s).sensor i = (s.sensor i).tripped := by
  rw [State.sensor, (trip_leaves i s).tamper]
  simp

theorem trip_sensor_other {i j : SensorNo} (h : j ≠ i) : (trip i s).sensor j = s.sensor j := by
  have apart : i.val ≠ j.val := fun e => h (Fin.ext e.symm)
  simp [State.sensor, (trip_leaves i s).tamper, apart]

end

section
variable {s : State} {i : SensorNo}

/-- The engine is IDLE and the store has the sensor's cause in its suspend set (R96, R157). -/
theorem trip_suspend_leaves (h : (s.sensor i).action = .suspend) :
    (trip i s).engine = none ∧ (trip i s).store = { s.store with suspend := s.store.suspend.set i.val true } ∧
      (trip i s).order.hand = s.order.hand := by
  have engine : (((tripTold i s).setSensor i (s.sensor i).tripped).setCause i true).engine = s.engine := tripTold_engine i s
  rw [trip_suspend h]
  refine ⟨abortsOf_engine engine, (abortsOf_store engine).trans ?_, ?_⟩
  · rw [State.setCause, setSensor_store, tripTold_store]
  · rw [abortsOf_order engine, setCause_order, setSensor_order, tripTold_order]

theorem trip_rescrub_leaves (h : (s.sensor i).action = .zeroise) (hz : s.store.custody = .zeroised) :
    (trip i s).store = { s.store with scrub := some .zeroise } ∧ (trip i s).order.hand = s.order.hand := by
  rw [trip_rescrub h hz]
  refine ⟨?_, ?_⟩
  · rw [scrubAgain, setSensor_store, tripTold_store]
  · rw [scrubAgain, setSensor_order, tripTold_order]

/-- The engine is IDLE, the store empty, the idle timer STOPPED, and the order in hand as a zeroisation leaves it (R27, R96, R140). -/
theorem trip_zeroise_leaves (h : (s.sensor i).action = .zeroise) (hz : s.store.custody ≠ .zeroised) :
    (trip i s).engine = none ∧
      (trip i s).store = { s.store with
        slots := Vector.replicate 64 (Slot.blank false), custody := .zeroised, lastOrder := 0,
        suspend := Vector.replicate 6 false, scrub := some .zeroise, verify := none, working := Vector.replicate 64 false } ∧
      (trip i s).power.idle = none ∧ (trip i s).order.hand = s.order.hand.map OrderInHand.afterZeroise := by
  obtain ⟨table, core, -, -, zeroised⟩ := trip_zeroise h hz
  have engine : (lineNotices s (((tripTold i s).setSensor i (s.sensor i).tripped).zeroised table core)).engine = s.engine :=
    (lineNotices_engine ..).trans (tripTold_engine i s)
  rw [zeroised, abortsOf_store engine, abortsOf_power engine, abortsOf_order engine, lineNotices_store, lineNotices_power,
    lineNotices_order]
  refine ⟨abortsOf_engine engine, ?_, rfl, ?_⟩
  · rw [State.zeroised, setSensor_store, tripTold_store]
  · rw [State.zeroised, setSensor_order, tripTold_order]

end

/-- A trip leaves the order in hand as it was, or as a zeroisation leaves it (R140). -/
theorem trip_hand (i : SensorNo) (s : State) :
    (trip i s).order.hand = s.order.hand ∨ (trip i s).order.hand = s.order.hand.map OrderInHand.afterZeroise := by
  cases ha : (s.sensor i).action with
  | suspend => exact .inl (trip_suspend_leaves ha).2.2
  | zeroise =>
    by_cases hz : s.store.custody = .zeroised
    · exact .inl (trip_rescrub_leaves ha hz).2
    · exact .inr (trip_zeroise_leaves ha hz).2.2.2

/-- Settles O59: what every trip leaves, then each action with the abort of the record. -/
theorem tripActs : Obligations.TripActs := by
  refine ⟨fun s i => ?_, fun s i => ?_⟩
  · intro x t entry
    have leaves := trip_leaves i s
    refine ⟨?_, ?_, ?_, ?_, ?_, fun h => ?_, leaves.time, leaves.link, leaves.recipes, leaves.staging,
      fun j => trip_sensor_other s, fun h => ?_, fun h => ?_⟩
    · simp [t, leaves.tamper, State.tripEntered, State.tripEntry, entry, x]
    · simp [t, leaves.tamper, State.tripEntered]
    · rw [leaves.tamper]; rfl
    · rw [leaves.gate]
    · rw [leaves.gate]
    · cases ha : x.action with
      | suspend => exact (trip_suspend_leaves ha).1
      | zeroise => exact (trip_zeroise_leaves ha (h.resolve_left (by simp [ha]))).1
    · obtain ⟨-, store, -⟩ := trip_suspend_leaves h
      refine ⟨(trip_sensor_self i s).trans (tripped_suspend h), ?_, store⟩
      rw [State.suspended, store]
      exact (any_toList_iff _ id).2 ⟨i, Vector.getElem_set_self ..⟩
    · refine ⟨(trip_sensor_self i s).trans (tripped_zeroise h), ?_⟩
      by_cases hz : s.store.custody = .zeroised
      · obtain ⟨store, -⟩ := trip_rescrub_leaves h hz
        refine ⟨?_, ?_, fun hn => absurd hz hn⟩
        · rw [store]; exact hz
        · rw [store]
      · obtain ⟨-, store, idle, -⟩ := trip_zeroise_leaves h hz
        refine ⟨?_, ?_, fun _ => ⟨?_, ?_, ?_, ?_, idle⟩⟩
        · rw [store]
        · rw [store]
        · rw [store]
        · rw [store]
        · rw [State.suspended, store]; rfl
        · rw [store]
  · intro x main room before told aborts suspended latched
    refine ⟨fun h => ?_, fun h hz => ?_, fun h hz => ?_⟩
    · rw [trip_suspend h, tripped_suspend h, tripTold_setSensor]
      exact rfl
    · rw [trip_rescrub h hz, tripped_zeroise h, tripTold_setSensor]
      exact rfl
    · intro lost hit given
      obtain ⟨table, core, runs, steps, zeroised⟩ := trip_zeroise h hz
      refine ⟨table, core, s.order.hand.map OrderInHand.afterZeroise, _, runs, steps.engine, steps.order, steps.queue, steps.work,
        steps.other, ?_, ?_, rfl, ?_⟩
      · rintro hn
        rw [hn]; rfl
      · rintro w hw
        rw [hw, Option.map_some]
        cases hx : w.handling <;> simp [OrderInHand.afterZeroise, hx]
      · rw [zeroised, tripped_zeroise h, tripTold_zeroised]
        exact rfl

end Sys2Proof.Machine
end

section
/-! Proofs. The sensors' inputs, their qualification, and the end of the maintenance window (R154, R155, R158, R162). -/

namespace Sys2Proof.Machine

/-! ### Quiet units -/

/-- A trip begins no load and presents no step (R42). -/
theorem trip_quiet (i : SensorNo) {s : State} (h : s.quiet) : (trip i s).quiet := by
  refine ⟨fun k hk => h.1 k ((trip_orderly i s).queue.subset hk), fun x l hx => ?_⟩
  rcases trip_hand i s with kept | zeroised
  · exact h.2 x l (kept.symm.trans hx)
  · rw [zeroised] at hx
    obtain ⟨y, hy, rfl⟩ := Option.map_eq_some_iff.1 hx
    cases e : y.handling with
    | loading l' => exact absurd e (h.2 y l' hy)
    | _ => simp [OrderInHand.afterZeroise, e]

/-! ### A sensor that is considered -/

@[simp] theorem setSensor_setSensor (s : State) (i : SensorNo) (x y : Sensor) : (s.setSensor i x).setSensor i y = s.setSensor i y := by
  simp [State.setSensor]

@[simp] theorem setSensor_same (s : State) (i : SensorNo) : s.setSensor i (s.sensor i) = s := by
  simp [State.setSensor, State.sensor]

/-- With this record a sensor is enabled, its input active, and it is not held off (R155, R161). -/
def State.arms (s : State) (i : SensorNo) (x : Sensor) : Prop :=
  x.enable = true ∧ x.active = true ∧ ¬(i = 0 ∧ s.tamper.window ≠ none)

/-- A sensor's record as it begins to qualify (R155). -/
def Sensor.qualifies (x : Sensor) : Sensor := { x with status := .qualifying, timer := some x.qualification }

/-- A sensor's record back in IDLE (R155, R158). -/
def Sensor.idled (x : Sensor) : Sensor := { x with status := .idle, timer := none }

section
variable {s : State} {i : SensorNo} {x : Sensor}

theorem armed_setSensor : (s.setSensor i x).armed i = true ↔ s.arms i x := by
  have window : (s.setSensor i x).tamper.window = s.tamper.window := rfl
  simp [State.armed, State.heldOff, State.arms, window, imp_iff_not_or, and_assoc]

/-- A sensor whose record has just been written is considered: it stays as written, trips at once, or begins to qualify (R155). -/
theorem considerSensor_stays (h : ¬(x.status = .idle ∧ s.arms i x)) : considerSensor i (s.setSensor i x) = s.setSensor i x :=
  if_neg (by rwa [setSensor_sensor_self, armed_setSensor])

theorem considerSensor_begins (hs : x.status = .idle) (ha : s.arms i x) :
    considerSensor i (s.setSensor i x) = beginQualify i (s.setSensor i x) :=
  if_pos (by rw [setSensor_sensor_self, armed_setSensor]; exact ⟨hs, ha⟩)

theorem considerSensor_trips (hs : x.status = .idle) (ha : s.arms i x) (hq : x.qualification = 0) :
    considerSensor i (s.setSensor i x) = trip i (s.setSensor i x) := by
  rw [considerSensor_begins hs ha]
  exact if_pos (by rwa [setSensor_sensor_self])

theorem considerSensor_qualifies (hs : x.status = .idle) (ha : s.arms i x) (hq : x.qualification ≠ 0) :
    considerSensor i (s.setSensor i x) = s.setSensor i x.qualifies := by
  rw [considerSensor_begins hs ha, beginQualify, setSensor_sensor_self, setSensor_setSensor]
  exact if_neg hq

theorem releaseSensor_setSensor : releaseSensor i (s.setSensor i x) = (s.setSensor i x.idled).setCause i false := by
  rw [releaseSensor, setSensor_sensor_self, setSensor_setSensor]; rfl

/-! ### The input -/

theorem inputReturned_stays (h : x.status = .idle ∨ x.status = .latched) :
    inputReturned i (s.setSensor i x) = s.setSensor i x := by
  rcases h with h | h <;> simp only [inputReturned, setSensor_sensor_self, h]

theorem inputReturned_qualifying (h : x.status = .qualifying) : inputReturned i (s.setSensor i x) = s.setSensor i x.idled := by
  simp only [inputReturned, setSensor_sensor_self, h, setSensor_setSensor, Sensor.idled]

theorem inputReturned_tripped (h : x.status = .tripped) :
    inputReturned i (s.setSensor i x) = (s.setSensor i x.idled).setCause i false := by
  simp only [inputReturned, setSensor_sensor_self, h, releaseSensor_setSensor]

end

/-- A sensor's record with its input at the active level (R154). -/
def Sensor.on (x : Sensor) : Sensor := { x with input := decide (x.polarity = .activeHigh) }

/-- A sensor's record with its input at the inactive level (R154). -/
def Sensor.off (x : Sensor) : Sensor := { x with input := decide (x.polarity = .activeLow) }

theorem on_active (x : Sensor) : x.on.active = true := by
  cases hp : x.polarity <;> simp [Sensor.on, Sensor.active, hp]

theorem setInput_true (s : State) (i : SensorNo) : s.setInput i true = s.setSensor i (s.sensor i).on := by
  cases hp : (s.sensor i).polarity <;> simp [State.setInput, Sensor.on, hp, Polarity.level]

theorem setInput_false (s : State) (i : SensorNo) : s.setInput i false = s.setSensor i (s.sensor i).off := by
  cases hp : (s.sensor i).polarity <;> simp [State.setInput, Sensor.off, hp, Polarity.level]

/-! ### The events -/

section
variable {s u : State} {i : SensorNo}

/-- An input that becomes active on a supplied unit has its sensor considered, and the Core is shared (R155, R32). -/
theorem inputActive_gives (hv : s.power.valid = true) (hx : (s.sensor i).active = false)
    (hc : considerSensor i (s.setSensor i (s.sensor i).on) = u) (hu : u.quiet) :
    ∃ t, exec (.sensorInputActive i) s = .next t ∧ SettlesTo u t := by
  refine ⟨settleCore u, ?_, settleCore_settles hu⟩
  rw [← hc, ← setInput_true]
  show execSensorInputActive i s = _
  simp [execSensorInputActive, hv, hx]

/-- An input that returns on a supplied unit, and the take that its event allows (R155, R158, R91). -/
theorem inputInactive_gives (hv : s.power.valid = true) (hx : (s.sensor i).active = true)
    (hr : inputReturned i (s.setSensor i (s.sensor i).off) = u) (hu : u.quiet) :
    ∃ t, exec (.sensorInputInactive i) s = .next t ∧ SettlesTo (engineTake u) t := by
  refine ⟨settleUnit u, ?_, settleUnit_settles hu⟩
  rw [← hr, ← setInput_false]
  show execSensorInputInactive i s = _
  simp [execSensorInputInactive, hv, hx]

theorem qualificationExpiry_gives (hv : s.power.valid = true) (hs : (s.sensor i).status = .qualifying)
    (ht : (s.sensor i).timer = some 0) (hq : s.quiet) :
    ∃ t, exec (.qualificationExpiry i) s = .next t ∧ SettlesTo (trip i s) t :=
  ⟨_, if_pos ⟨hv, hs, ht⟩, settleCore_settles (trip_quiet i hq)⟩

theorem windowEnd_gives (hv : s.power.valid = true) (hw : s.tamper.window = some 0) (hc : closeWindow s = u) (hu : u.quiet) :
    ∃ t, exec .windowEnd s = .next t ∧ SettlesTo u t := by
  subst hc
  exact ⟨_, if_pos ⟨hv, hw⟩, settleCore_settles hu⟩

end

/-! ### The end of the window -/

/-- The maintenance window closed (R162). -/
def State.windowClosed (s : State) : State := { s with tamper := { s.tamper with window := none } }

section
variable {s : State}

theorem closeWindow_considers (s : State) : closeWindow s = considerSensor 0 (s.windowClosed.setSensor 0 (s.sensor 0)) := by
  have same : s.sensor 0 = s.windowClosed.sensor 0 := rfl
  rw [same, setSensor_same]
  rfl

theorem arms_windowClosed {x : Sensor} : s.windowClosed.arms 0 x ↔ x.enable = true ∧ x.active = true := by
  simp [State.arms, State.windowClosed]

theorem windowClosed_setSensor (s : State) : s.windowClosed.setSensor 0 (s.sensor 0) = s.windowClosed :=
  setSensor_same s.windowClosed 0

theorem closeWindow_stays (h : (s.sensor 0).status ≠ .idle ∨ (s.sensor 0).enable = false ∨ (s.sensor 0).active = false) :
    closeWindow s = s.windowClosed := by
  rw [closeWindow_considers, considerSensor_stays, windowClosed_setSensor]
  rw [arms_windowClosed]
  rintro ⟨idle, enabled, active⟩
  simp [idle, enabled, active] at h

variable (hs : (s.sensor 0).status = .idle) (he : (s.sensor 0).enable = true) (ha : (s.sensor 0).active = true)
include hs he ha

theorem closeWindow_trips (hq : (s.sensor 0).qualification = 0) : closeWindow s = trip 0 s.windowClosed := by
  rw [closeWindow_considers, considerSensor_trips hs (arms_windowClosed.2 ⟨he, ha⟩) hq, windowClosed_setSensor]

theorem closeWindow_qualifies (hq : (s.sensor 0).qualification ≠ 0) :
    closeWindow s = s.windowClosed.setSensor 0 (s.sensor 0).qualifies := by
  rw [closeWindow_considers, considerSensor_qualifies hs (arms_windowClosed.2 ⟨he, ha⟩) hq]

end

/-- Settles O58: an input that becomes active by whether its sensor is armed, one that returns by the sensor's status, then the two
expiries. -/
theorem sensorsQualifyAndTrip : Obligations.SensorsQualifyAndTrip := by
  intro s i hv hq x gives on off armed
  refine ⟨fun hx => ?_, fun hx => ?_, fun hs ht => qualificationExpiry_gives hv hs ht hq, fun hw => ?_⟩
  · have considered {u : State} := inputActive_gives (u := u) hv hx
    have arms (ha : armed) : s.arms i x.on := ⟨ha.1, on_active x, ha.2.2⟩
    refine ⟨fun ha => ?_, fun ha hn => ?_, fun ha hz => ?_⟩
    · refine considered (considerSensor_stays fun ⟨idle, enabled, _, free⟩ => ha ?_) hq
      exact ⟨enabled, idle, free⟩
    · exact considered (considerSensor_qualifies ha.2.1 (arms ha) hn) hq
    · exact considered (considerSensor_trips ha.2.1 (arms ha) hz) (trip_quiet i hq)
  · have returned {u : State} := inputInactive_gives (u := u) hv hx
    exact ⟨fun hs => returned (inputReturned_stays hs) hq, fun hs => returned (inputReturned_qualifying hs) hq,
      fun hs => returned (inputReturned_tripped hs) hq⟩
  · have closed {u : State} := windowEnd_gives (u := u) hv hw
    refine ⟨fun h => closed (closeWindow_stays ?_) hq, fun he ha hs => ⟨fun hn => ?_, fun hz => ?_⟩⟩
    · rcases h with enabled | active | busy
      exacts [.inr (.inl enabled), .inr (.inr active), .inl busy]
    · exact closed (closeWindow_qualifies hs he ha hn) hq
    · exact closed (closeWindow_trips hs he ha hz) (trip_quiet 0 hq)

end Sys2Proof.Machine
end

section
/-! Proofs. SET SENSOR, OPEN CABINET and CLOSE CABINET (R155, R160 to R162). -/

namespace Sys2Proof.Machine

/-! ### The bytes of a configuration -/

/-- The reading of a byte that has two codes: one of its values, or RANGE (R189). -/
def TwoCodes {α : Type} (b : Byte) (e : Except OrderResult α) : Prop :=
  (b.toNat < 2 ∧ ∃ a, e = .ok a) ∨ (2 ≤ b.toNat ∧ e = .error .range)

theorem twoCodes_of_ite {α : Type} (b : Byte) (x y : α) :
    TwoCodes b (if b = 0 then .ok x else if b = 1 then .ok y else .error .range) := by
  by_cases h0 : b = 0
  · exact .inl ⟨by simp [h0], x, if_pos h0⟩
  by_cases h1 : b = 1
  · exact .inl ⟨by simp [h1], y, by rw [if_neg h0, if_pos h1]⟩
  · exact .inr ⟨by bv_omega, by rw [if_neg h0, if_neg h1]⟩

/-- A field out of its list is RANGE, and one in it leaves the refusal to what is read after it. -/
theorem bind_range {α β : Type} {b : Byte} {e : Except OrderResult α} {f : α → Except OrderResult β} (he : TwoCodes b e)
    (hf : b.toNat < 2 → ∀ a, f a = .error .range) : (e >>= f) = .error .range := by
  rcases he with ⟨low, a, rfl⟩ | ⟨-, rfl⟩
  · exact hf low a
  · rfl

theorem byteAt_drop (bs : Bytes) (n i : Nat) : byteAt (bs.drop n) i = byteAt bs (n + i) := by
  simp [byteAt]

section
variable {ps : Bytes}

/-- The record that SET SENSOR writes (R160). -/
theorem configure_codes (y : Sensor) {enable masked : Bool} {polarity : Polarity} {mode : SensorMode} {action : TamperAction}
    (he : byteAt ps 0 = flagByte enable) (hp : byteAt ps 1 = polarity.code) (hm : byteAt ps 2 = mode.code)
    (ha : byteAt ps 3 = action.code) (hk : byteAt ps 5 = flagByte masked) :
    configure y ps =
      .ok { y with
        enable := enable, polarity := polarity, mode := mode, action := action, qualification := (byteAt ps 4).toNat,
        alarmMasked := masked } := by
  rw [configure, he, hp, hm, ha, hk, flagOf_flagByte, polarityOf_code, modeOf_code, tamperActionOf_code, flagOf_flagByte]
  rfl

/-- A value outside its list in any field of two codes is RANGE (R160, R189). -/
theorem configure_range (y : Sensor) (h : ∃ i ∈ [0, 1, 2, 3, 5], 2 ≤ (byteAt ps i).toNat) : configure y ps = .error .range := by
  refine bind_range (twoCodes_of_ite ..) fun h0 _ => bind_range (twoCodes_of_ite ..) fun h1 _ =>
    bind_range (twoCodes_of_ite ..) fun h2 _ => bind_range (twoCodes_of_ite ..) fun h3 _ =>
    bind_range (twoCodes_of_ite ..) fun h5 _ => ?_
  obtain ⟨i, hi, high⟩ := h
  simp only [List.mem_cons, List.not_mem_nil, or_false] at hi
  rcases hi with rfl | rfl | rfl | rfl | rfl <;> omega

end

/-! ### SET SENSOR -/

section
variable {s : State} {i : SensorNo} {x : Sensor}

/-- What a new configuration does to its sensor, by the status it stands in (R160). -/
theorem reconfigured_idle (h : x.status = .idle) : reconfigured i (s.setSensor i x) = considerSensor i (s.setSensor i x) := by
  simp only [reconfigured, setSensor_sensor_self, h]

theorem reconfigured_qualifying (h : x.status = .qualifying) :
    reconfigured i (s.setSensor i x) = considerSensor i (s.setSensor i x.idled) := by
  simp only [reconfigured, setSensor_sensor_self, h, setSensor_setSensor, Sensor.idled]

theorem reconfigured_latched (h : x.status = .latched) : reconfigured i (s.setSensor i x) = s.setSensor i x := by
  simp only [reconfigured, setSensor_sensor_self, h]

theorem reconfigured_tripped_active (h : x.status = .tripped) (ha : x.active = true) :
    reconfigured i (s.setSensor i x) = s.setSensor i x := by
  simp only [reconfigured, setSensor_sensor_self, h, ha, if_true]

theorem reconfigured_tripped_inactive (h : x.status = .tripped) (ha : x.active = false) :
    reconfigured i (s.setSensor i x) = (s.setSensor i x.idled).setCause i false := by
  simp only [reconfigured, setSensor_sensor_self, h, ha, releaseSensor_setSensor, Bool.false_eq_true, if_false]

theorem tripped_status (x : Sensor) :
    x.tripped.status = if x.action = .suspend ∧ x.mode = .transient then .tripped else .latched := by
  cases ha : x.action <;> cases hm : x.mode <;> simp [Sensor.tripped, ha, hm]

theorem checkSetSensor_noSuch {ps : Bytes} (h : 6 ≤ (byteAt ps 0).toNat) : checkSetSensor ps s = .error .noSuch := by
  rw [checkSetSensor, sensorOf, dif_neg (not_lt.2 h)]; rfl

theorem checkSetSensor_range {ps : Bytes} (h6 : (byteAt ps 0).toNat < 6) (h : ∃ i ∈ [1, 2, 3, 4, 6], 2 ≤ (byteAt ps i).toNat) :
    checkSetSensor ps s = .error .range := by
  have shifted : ∃ i ∈ [0, 1, 2, 3, 5], 2 ≤ (byteAt (ps.drop 1) i).toNat := by
    obtain ⟨i, hi, high⟩ := h
    have places : ∀ i ∈ [1, 2, 3, 4, 6], i - 1 ∈ [0, 1, 2, 3, 5] ∧ 1 + (i - 1) = i := by decide
    obtain ⟨listed, same⟩ := places i hi
    exact ⟨i - 1, listed, by rwa [byteAt_drop, same]⟩
  rw [checkSetSensor, sensorOf_eq (i := ⟨_, h6⟩) rfl, ok_bind, configure_range _ shifted]; rfl

/-- The row of an accepted SET SENSOR whose checks pass: it answers the configuration and the status that its sensor then has (R160). -/
theorem setSensor_row {h : OrderInHand} (a : Accepting setSensorRule h s) (hi : (byteAt h.params 0).toNat = i.val)
    (hx : configure (s.sensor i) (h.params.drop 1) = .ok x) {v : State} {y : Sensor}
    {status : SensorStatus} (hv : reconfigured i ((acceptedState h s).setSensor i x) = v) (hy : v.sensor i = y)
    (hc : y.config = x.config) (hs : y.status = status) :
    ∃ t, exec .setSensor s = .next t ∧ AnswersWith h .done (x.config ++ [status.code]) (engineTake v) t := by
  have sensor : (acceptedState h s).sensor i = s.sensor i := by rw [State.sensor, acceptedState_tamper]; rfl
  have quiet : v.quietQueue := fun k hk =>
    acceptedState_quiet a k ((hv ▸ reconfigured_orderly i ((acceptedState h s).setSensor i x)).queue.subset hk)
  refine accepted_row rfl a (by decide) ((engineTake_apart v).quietQueue quiet) ?_
  have passes : checkSetSensor h.params (acceptedState h s) = .ok (i, x) := by
    rw [checkSetSensor, sensorOf_eq hi, ok_bind, sensor, hx, ok_bind, pure_ok]
  show takeSetSensor _ _ = _
  rw [takeSetSensor, passes, checked_ok]
  dsimp only
  rw [hv, hy, hc, hs]

/-- The row of an accepted SET SENSOR that a check refuses (R160, R189). -/
theorem setSensor_refused {h : OrderInHand} (a : Accepting setSensorRule h s) {r : OrderResult}
    (hr : checkSetSensor h.params (acceptedState h s) = .error r) :
    ∃ t, exec .setSensor s = .next t ∧ AnswersWith h r [] (acceptedState h s) t := by
  refine accepted_refused rfl (by decide) a ?_
  show takeSetSensor _ _ = _
  rw [takeSetSensor, hr, checked_error]

end

/-! ### OPEN CABINET and CLOSE CABINET -/

theorem byteOf_byte (b : Byte) : byteOf b.toNat = b := by simp [byteOf]

theorem openCabinet_passes {a : OrderArgs} {s : State} (h1 : 1 ≤ (byteAt a.params 0).toNat) (h30 : (byteAt a.params 0).toNat ≤ 30) :
    openCabinetRule.take a s = .answered .done [byteAt a.params 0] (openWindow ((byteAt a.params 0).toNat * 60000) s) := by
  show takeOpenCabinet a s = _
  simp only [takeOpenCabinet, h1, h30, decide_true, Bool.and_self, need_true, checked_ok, byteOf_byte]

theorem openCabinet_range {a : OrderArgs} {s : State} (h : (byteAt a.params 0).toNat = 0 ∨ 30 < (byteAt a.params 0).toNat) :
    openCabinetRule.take a s = .answered .range [] s := by
  have fails : (decide (1 ≤ (byteAt a.params 0).toNat) && decide ((byteAt a.params 0).toNat ≤ 30)) = false := by
    rw [← Bool.decide_and, decide_eq_false_iff_not]
    omega
  show takeOpenCabinet a s = _
  simp only [takeOpenCabinet, fails, need_false, checked_error]

theorem openWindow_core (ms : Nat) (s : State) : (openWindow ms s).core = s.core := by
  unfold openWindow
  dsimp only
  split <;> rfl

/-- CLOSE CABINET with no window open (R162). -/
theorem closeCabinet_closed {s : State} {h : OrderInHand} (a : Accepting closeCabinetRule h s) (hw : s.tamper.window = none) :
    ∃ t, exec .closeCabinet s = .next t ∧ AnswersWith h .done [] (acceptedState h s) t := by
  refine accepted_row rfl a (by decide) (acceptedState_quiet a) ?_
  simp [closeCabinetRule, knownOrder, takeCloseCabinet, hw]

/-- CLOSE CABINET, by what the close of the window makes of the unit (R162). -/
theorem closeCabinet_row {s v : State} {h : OrderInHand} (a : Accepting closeCabinetRule h s) (hw : s.tamper.window ≠ none)
    (hv : closeWindow (acceptedState h s) = v) :
    ∃ t, exec .closeCabinet s = .next t ∧ AnswersWith h .done [] v t := by
  have quiet : v.quietQueue := fun k hk => acceptedState_quiet a k ((hv ▸ closeWindow_orderly _).queue.subset hk)
  refine accepted_row rfl a (by decide) quiet ?_
  have isOpen : (acceptedState h s).tamper.window.isSome = true := by
    rw [acceptedState_tamper]; exact Option.isSome_iff_ne_none.2 hw
  simp only [closeCabinetRule, knownOrder, takeCloseCabinet, if_pos isOpen, hv]

/-- Settles O41: SET SENSOR by the sensor's status and its refusals by their checks, then the two orders of the window. -/
theorem sensorAndCabinetOrders : Obligations.SensorAndCabinetOrders := by
  refine ⟨?_, fun s h a => ?_, fun s h => ?_⟩
  · intro s h i enable masked polarity mode action a hi he hp hm ha hk u q x config arms answers
    have passes : configure (s.sensor i) (h.params.drop 1) = .ok x :=
      (configure_codes (s.sensor i) (by rwa [byteAt_drop]) (by rwa [byteAt_drop]) (by rwa [byteAt_drop]) (by rwa [byteAt_drop])
        (by rwa [byteAt_drop])).trans (by rw [byteAt_drop])
    have written := @setSensor_row s i x h a hi passes
    have armed : u.arms i x ↔ arms := by rw [State.arms, acceptedState_tamper]
    have tripped (y : Sensor) : (trip i (u.setSensor i y)).sensor i = y.tripped := by
      rw [trip_sensor_self, setSensor_sensor_self]
    have self (y : Sensor) : (u.setSensor i y).sensor i = y := setSensor_sensor_self u i y
    -- Of the record written the clauses read only this; with its value in sight, unification would unfold it at each status.
    have standing : (s.sensor i).status = x.status := rfl
    have ticks : q = x.qualification := rfl
    have acts : action = x.action := rfl
    have way : mode = x.mode := rfl
    have reported : config = x.config := rfl
    simp only [standing, ticks, acts, way, answers, reported]
    clear_value x
    refine ⟨fun hs ha => ?_, fun hs ha hq => ?_, fun hs ha => ?_, fun hs ha hq => ?_, fun hs ha hq => ?_, fun hs ha hq => ?_,
      fun hs => ?_, fun hs hx => ?_, fun hs hx => ?_⟩
    · exact written ((reconfigured_idle hs).trans (considerSensor_stays fun k => ha (armed.1 k.2))) (self x) rfl hs
    · exact written ((reconfigured_idle hs).trans (considerSensor_qualifies hs (armed.2 ha) hq)) (self x.qualifies) rfl rfl
    · exact written ((reconfigured_qualifying hs).trans (considerSensor_stays fun k => ha (armed.1 k.2))) (self x.idled) rfl rfl
    · exact written ((reconfigured_qualifying hs).trans (considerSensor_qualifies rfl (armed.2 ha) hq)) (self x.qualifies) rfl rfl
    · exact written ((reconfigured_idle hs).trans (considerSensor_trips hs (armed.2 ha) hq)) (tripped x) rfl (tripped_status x)
    · exact written ((reconfigured_qualifying hs).trans (considerSensor_trips rfl (armed.2 ha) hq)) (tripped x.idled) rfl
        (tripped_status x.idled)
    · exact written (reconfigured_latched hs) (self x) rfl hs
    · exact written (reconfigured_tripped_active hs hx) (self x) rfl hs
    · exact written (reconfigured_tripped_inactive hs hx) (self x.idled) rfl rfl
  · refine ⟨fun high => setSensor_refused a ?_, fun low ⟨i, hi, high⟩ => setSensor_refused a ?_⟩
    · exact checkSetSensor_noSuch high
    · exact checkSetSensor_range low ⟨i, hi, high⟩
  · have sensor : (acceptedState h s).sensor 0 = s.sensor 0 := by rw [State.sensor, acceptedState_tamper]; rfl
    refine ⟨fun a => ⟨fun hm => ?_, fun h1 h30 => ?_⟩, fun a => ⟨fun hw => ?_, fun hw => ?_⟩⟩
    · exact accepted_refused rfl (by decide) a (openCabinet_range hm)
    · rw [← sensor]
      exact accepted_row rfl a (by decide) (quietQueue_of_queue (acceptedState_quiet a) (congrArg _ (openWindow_core ..)))
        (openCabinet_passes h1 h30)
    · exact closeCabinet_closed a hw
    · rw [← sensor]
      have closed {v : State} := closeCabinet_row (v := v) a hw
      exact ⟨fun hs => closed (closeWindow_stays hs), fun hs he ha hq => closed (closeWindow_trips hs he ha hq),
        fun hs he ha hq => closed (closeWindow_qualifies hs he ha hq)⟩

end Sys2Proof.Machine
end

section
/-! Proofs. The tick of the Time Base, what falls due at it, each once (R155, R161, R162, R170, R171). -/

namespace Sys2Proof.Machine

/-! ### What falls due -/

section
variable {s : State} {i : Instr}

theorem atDeadline_iff {d : Option Word} : s.atDeadline d = true ↔ d = some s.time.millis := decide_eq_true_iff

/-- The outcome timer of a run's card that falls due (R62, R170). -/
def State.dueLapse (s : State) (r : Run) (o : Nat) : Option Instr :=
  match r.position o with
  | none => none
  | some p =>
    if p.state = .out ∧ s.atDeadline (p.dispatched.map fun d => d + BitVec.ofNat 32 r.timeout) = true then
      some (.lapse r.number o)
    else none

theorem dueLapses_eq (s : State) (r : Run) : s.dueLapses r = (List.range 64).filterMap fun n => s.dueLapse r (r.low + n) := rfl

theorem dueLapse_iff {r : Run} {o : Nat} :
    s.dueLapse r o = some i ↔
      ∃ p d, r.position o = some p ∧ p.state = .out ∧ p.dispatched = some d ∧ d + BitVec.ofNat 32 r.timeout = s.time.millis ∧
        i = .lapse r.number o := by
  unfold State.dueLapse
  cases r.position o with
  | none => simp
  | some p =>
    simp only [Option.ite_none_right_eq_some, atDeadline_iff, Option.map_eq_some_iff, Option.some.injEq]
    constructor
    · rintro ⟨⟨out, d, dispatched, deadline⟩, rfl⟩
      exact ⟨p, d, rfl, out, dispatched, deadline, rfl⟩
    · rintro ⟨_, d, rfl, out, dispatched, deadline, rfl⟩
      exact ⟨⟨out, d, dispatched, deadline⟩, rfl⟩

/-- A card stands OUT in the window alone, so the walk along the window meets every outcome timer (R54, R62). -/
theorem mem_dueLapses {r : Run} : i ∈ s.dueLapses r ↔ ∃ o, s.dueLapse r o = some i := by
  rw [dueLapses_eq, List.mem_filterMap]
  constructor
  · rintro ⟨n, -, due⟩
    exact ⟨_, due⟩
  · rintro ⟨o, due⟩
    obtain ⟨p, d, position, -⟩ := dueLapse_iff.1 due
    have window := inWindow_of_position position
    simp only [Run.inWindow, Bool.and_eq_true, decide_eq_true_eq] at window
    exact ⟨o - r.low, List.mem_range.2 (by omega), by rwa [Nat.add_sub_cancel' window.1.1]⟩

theorem mem_ite_single {c : Prop} [Decidable c] {x : Instr} : i ∈ (if c then [x] else []) ↔ c ∧ i = x := by
  split <;> simp [*]

/-- The expiry that a running idle timer brings at its deadline (R187, log 28). -/
def State.dueIdle (s : State) : List Instr :=
  match s.power.idle with
  | none => []
  | some t => if s.atDeadline (some t.deadline) then [if 1 < t.minutes then .idleMinuteDeadline else .idleTimerExpiry] else []

theorem mem_dueIdle :
    i ∈ s.dueIdle ↔
      ∃ m, s.power.idle = some { minutes := m, deadline := s.time.millis } ∧
        i = if 2 ≤ m then .idleMinuteDeadline else .idleTimerExpiry := by
  unfold State.dueIdle
  cases s.power.idle with
  | none => simp
  | some t =>
    obtain ⟨minutes, deadline⟩ := t
    rw [mem_ite_single, atDeadline_iff]
    simp [Nat.succ_le_iff, and_comm]

theorem dueIdle_nodup (s : State) : s.dueIdle.Nodup := by
  unfold State.dueIdle
  split
  · exact List.nodup_nil
  · split <;> simp

theorem dueMain_eq (s : State) :
    s.dueMain =
      s.runs.table.flatMap s.dueLapses ++
        ((List.finRange 64).filterMap fun n =>
          if (s.slot n).state = .assembling ∧ s.atDeadline (s.slot n).deadline = true then some (.assemblyLapse n) else none) ++
        (if s.atDeadline s.order.gate.deadline then [.gateLapse] else []) ++
        (if s.atDeadline s.power.settling then [.settlingExpiry] else []) ++ s.dueIdle := rfl

theorem mem_dueMain (s : State) (i : Instr) :
    i ∈ s.dueMain ↔
      (∃ r o p d, r ∈ s.runs.table ∧ r.position o = some p ∧ p.state = .out ∧ p.dispatched = some d ∧
        d + BitVec.ofNat 32 r.timeout = s.time.millis ∧ i = .lapse r.number o) ∨
      (∃ n, (s.slot n).state = .assembling ∧ (s.slot n).deadline = some s.time.millis ∧ i = .assemblyLapse n) ∨
      (s.order.gate.deadline = some s.time.millis ∧ i = .gateLapse) ∨
      (s.power.settling = some s.time.millis ∧ i = .settlingExpiry) ∨
      ∃ m, s.power.idle = some { minutes := m, deadline := s.time.millis } ∧
        i = if 2 ≤ m then .idleMinuteDeadline else .idleTimerExpiry := by
  have lapses : i ∈ s.runs.table.flatMap s.dueLapses ↔
      ∃ r o p d, r ∈ s.runs.table ∧ r.position o = some p ∧ p.state = .out ∧ p.dispatched = some d ∧
        d + BitVec.ofNat 32 r.timeout = s.time.millis ∧ i = .lapse r.number o := by
    simp only [List.mem_flatMap, mem_dueLapses, dueLapse_iff, exists_and_left]
  rw [dueMain_eq, List.mem_append, List.mem_append, List.mem_append, List.mem_append, or_assoc, or_assoc, or_assoc]
  refine or_congr lapses (or_congr ?_ (or_congr ?_ (or_congr ?_ mem_dueIdle)))
  · simp [atDeadline_iff, and_assoc, eq_comm (a := i)]
  · rw [mem_ite_single, atDeadline_iff]
  · rw [mem_ite_single, atDeadline_iff]

theorem mem_dueBattery (s : State) (i : Instr) :
    i ∈ s.dueBattery ↔
      (∃ j, (s.sensor j).status = .qualifying ∧ (s.sensor j).timer = some 0 ∧ i = .qualificationExpiry j) ∨
      (s.tamper.window = some 0 ∧ i = .windowEnd) ∨ (1000 ≤ s.time.ticks ∧ i = .secondsClockAdvance) := by
  unfold State.dueBattery
  rw [List.mem_append, List.mem_append, or_assoc]
  refine or_congr ?_ (or_congr mem_ite_single mem_ite_single)
  simp [and_assoc, eq_comm (a := i)]

end

/-! ### Each falls due once -/

theorem dueLapse_lapse {s : State} {r : Run} {o : Nat} {i : Instr} (h : s.dueLapse r o = some i) : i = .lapse r.number o := by
  obtain ⟨_, _, -, -, -, -, e⟩ := dueLapse_iff.1 h
  exact e

theorem dueLapses_nodup (s : State) (r : Run) : (s.dueLapses r).Nodup := by
  refine List.Nodup.filterMap (fun m n i hm hn => ?_) List.nodup_range
  have e := (dueLapse_lapse hm).symm.trans (dueLapse_lapse hn)
  simpa using e

/-- The outcome timers of runs of distinct numbers are distinct (R43). -/
theorem lapses_nodup {s : State} (unique : (s.runs.table.map Run.number).Nodup) : (s.runs.table.flatMap s.dueLapses).Nodup := by
  refine List.nodup_flatMap.2 ⟨fun r _ => dueLapses_nodup s r, (List.pairwise_map.1 unique).imp fun {r r'} numbers => ?_⟩
  intro i hi hi'
  obtain ⟨o, due⟩ := mem_dueLapses.1 hi
  obtain ⟨o', due'⟩ := mem_dueLapses.1 hi'
  have e := (dueLapse_lapse due).symm.trans (dueLapse_lapse due')
  simp only [Instr.lapse.injEq] at e
  exact numbers e.1

/-- The place of an expiry's timer among the lists of what falls due; the commands that are no expiry come last. -/
def timerPlace : Instr → Nat
  | .lapse .. => 0
  | .assemblyLapse _ => 1
  | .gateLapse => 2
  | .settlingExpiry => 3
  | .idleMinuteDeadline | .idleTimerExpiry => 4
  | .qualificationExpiry _ => 5
  | .windowEnd => 6
  | .secondsClockAdvance => 7
  | _ => 8

/-- Expiries of the timers up to a place, each once. -/
def DueBefore (k : Nat) (xs : List Instr) : Prop := xs.Nodup ∧ ∀ i ∈ xs, timerPlace i < k

theorem DueBefore.append {k : Nat} {xs ys : List Instr} (hx : DueBefore k xs) (once : ys.Nodup)
    (place : ∀ i ∈ ys, timerPlace i = k) : DueBefore (k + 1) (xs ++ ys) := by
  obtain ⟨nodup, before⟩ := hx
  refine ⟨nodup.append once fun i hi hi' => ?_, fun i hi => ?_⟩
  · exact absurd (before i hi) (by rw [place i hi']; exact lt_irrefl k)
  · rcases List.mem_append.1 hi with hi | hi
    · exact Nat.lt_succ_of_lt (before i hi)
    · rw [place i hi]; exact Nat.lt_succ_self k

/-- One timer's expiry, when it falls due. -/
theorem DueBefore.append_ite {k : Nat} {xs : List Instr} (hx : DueBefore k xs) (c : Prop) [Decidable c] {x : Instr}
    (place : timerPlace x = k) : DueBefore (k + 1) (xs ++ if c then [x] else []) := by
  refine hx.append (by split <;> simp) fun i hi => ?_
  rw [(mem_ite_single.1 hi).2, place]

/-- The expiries of timers of one kind that fall due. -/
theorem DueBefore.append_filterMap {k n : Nat} {xs : List Instr} (hx : DueBefore k xs) (c : Fin n → Prop) [DecidablePred c]
    {expiry : Fin n → Instr} (distinct : expiry.Injective) (place : ∀ j, timerPlace (expiry j) = k) :
    DueBefore (k + 1) (xs ++ (List.finRange n).filterMap fun j => if c j then some (expiry j) else none) := by
  refine hx.append ((List.nodup_finRange n).filterMap fun j j' i hj hj' => ?_) fun i hi => ?_
  · simp only [Option.mem_def, Option.ite_none_right_eq_some, Option.some.injEq] at hj hj'
    exact distinct (hj.2.trans hj'.2.symm)
  · simp only [List.mem_filterMap, Option.ite_none_right_eq_some, Option.some.injEq] at hi
    obtain ⟨j, -, -, rfl⟩ := hi
    exact place j

theorem dueMain_before {s : State} (unique : (s.runs.table.map Run.number).Nodup) : DueBefore 5 s.dueMain := by
  have lapses : DueBefore 1 (s.runs.table.flatMap s.dueLapses) := by
    refine ⟨lapses_nodup unique, fun i hi => ?_⟩
    obtain ⟨r, -, hi⟩ := List.mem_flatMap.1 hi
    obtain ⟨o, due⟩ := mem_dueLapses.1 hi
    rw [dueLapse_lapse due]; exact Nat.one_pos
  rw [dueMain_eq]
  refine (((lapses.append_filterMap _ (fun _ _ => Instr.assemblyLapse.inj) fun _ => rfl).append_ite _ rfl).append_ite _ rfl).append
    (dueIdle_nodup s) fun i hi => ?_
  obtain ⟨m, -, rfl⟩ := mem_dueIdle.1 hi
  split <;> rfl

theorem due_nodup (s : State) (unique : (s.runs.table.map Run.number).Nodup) : (s.dueMain ++ s.dueBattery).Nodup := by
  unfold State.dueBattery
  rw [← List.append_assoc, ← List.append_assoc]
  exact ((((dueMain_before unique).append_filterMap _ (fun _ _ => Instr.qualificationExpiry.inj) fun _ => rfl).append_ite _
    rfl).append_ite _ rfl).1

/-! ### The tick -/

section
variable {s : State}

theorem countTick_mainUp : s.countTick.mainUp = true ↔ s.power.supply = .main := decide_eq_true_iff

/-- The expiries that a tick brings (log 2). -/
def State.tickEvents (s : State) : List Instr :=
  (if s.power.supply = .main then s.countTick.dueMain else []) ++ s.countTick.dueBattery

theorem tick_without_supply (h : s.power.valid = false) : tick s = s := by
  rw [tick, h]; rfl

theorem tick_with_supply (h : s.power.valid = true) :
    tick s =
      { s.countTick.tookChoices s.tickEvents.length with pending := s.pending ++ arrange s.free s.tickEvents } := by
  have events : (if s.countTick.mainUp then s.countTick.dueMain else []) ++ s.countTick.dueBattery = s.tickEvents := by
    simp only [State.tickEvents, countTick_mainUp]
  simp only [tick, h, if_true, events]
  rfl

theorem countTick_millis (s : State) :
    s.countTick.time.millis = if s.power.supply = .main then s.time.millis + 1 else s.time.millis := by
  simp only [State.countTick, State.mainUp, decide_eq_true_eq]

theorem countTick_sensor (s : State) (i : SensorNo) :
    s.countTick.sensor i = { s.sensor i with timer := (s.sensor i).timer.map fun n => n - 1 } := by
  simp only [State.countTick, State.sensor, Vector.getElem_map]

end

/-- Settles O2: an idle step is the tick, the counts with the expiries arranged behind them, and what falls due is what the two lists
hold. -/
theorem idleStepTicks : Obligations.IdleStepTicks := by
  refine ⟨fun s idle => ⟨tick s, by rw [step, idle], tick_without_supply, fun hv => ?_⟩,
    fun s i => ⟨mem_dueMain s i, mem_dueBattery s i, due_nodup s⟩⟩
  rw [tick_with_supply hv, idle]
  exact ⟨countTick_millis s, rfl, rfl, countTick_sensor s, rfl, arrange_perm s.free s.tickEvents, rfl⟩

end Sys2Proof.Machine
end

section
/-! Proofs. The offering of a notice and the building of an answer (R36, R151, R152, R172 to R175). -/

namespace Sys2Proof.Machine

section
variable {s : State}

/-! ### The tag of what is sent -/

theorem activeKey_of_active {n : SlotNo} {key : Block} (active : (s.slot n).state = .active) (hk : (s.slot n).key = some key) :
    s.activeKey n = some key := by
  rw [State.activeKey, if_pos active, hk]

theorem activeKey_of_not_active {n : SlotNo} (h : (s.slot n).state ≠ .active ∨ (s.slot n).key = none) : s.activeKey n = none := by
  rw [State.activeKey]
  split
  · next active => exact h.resolve_left (not_not.2 active)
  · rfl

theorem noticeTag_keyed {key : Block} (h : s.activeKey 0 = some key) (message : Bytes) :
    s.noticeTag message = .computing (TagJob.start key message) := by
  simp only [State.noticeTag, h]

theorem noticeTag_unkeyed (h : s.activeKey 0 = none) (message : Bytes) : s.noticeTag message = .ready 0 := by
  simp only [State.noticeTag, h]

/-! ### A notice -/

section
variable {kind : NoticeKind} {variant : Byte} {values : Bytes}

theorem offer_silent (h : s.power.supply = .battery ∨ s.report.noticeMask.getLsbD (kind.code - 1) = false) :
    offer kind variant values s = s := by
  have silent : ¬(s.mainUp && s.noticeEnabled kind) = true := by
    rcases h with battery | disabled
    · simp [State.mainUp, battery]
    · simp [State.noticeEnabled, disabled]
  exact if_neg silent

theorem offer_queues (main : s.power.supply = .main) (enabled : s.report.noticeMask.getLsbD (kind.code - 1) = true) :
    offer kind variant values s = s.queueNotice (s.noticeMessage kind variant values) := by
  have heard : (s.mainUp && s.noticeEnabled kind) = true := by simp [State.mainUp, State.noticeEnabled, main, enabled]
  exact if_pos heard

end

theorem queueNotice_place {message : Bytes} (room : s.report.notices.length < 16) :
    s.queueNotice message =
      { s with report := { s.report with notices := s.report.notices ++ [{ message := message, tag := s.noticeTag message }] } } :=
  if_pos room

theorem queueNotice_lost {message : Bytes} (full : 16 ≤ s.report.notices.length) :
    s.queueNotice message =
      { s with
        report := { s.report with
          lost := if s.report.lost.value < 65535 then { s.report.lost with value := s.report.lost.value + 1 }
            else { s.report.lost with limit := true } } } := by
  rw [State.queueNotice, if_neg (not_lt.2 full), bumpCounter_eq]
  rfl

/-! ### An answer -/

section
variable {h : OrderInHand} {r : OrderResult} {values : Bytes} {untagged : Bool}

/-- An answer without a tag enters the answer slot at once (R151). -/
theorem buildAnswer_unkeyed (bare : untagged = true ∨ s.activeKey 0 = none) :
    buildAnswer h r values untagged s =
      { s with
        order := { s.order with
          hand := some { h with handling := .answered }, answer := some (answerFrame (s.answerMessage h r values) 0) } } := by
  have unkeyed : (if untagged then none else s.activeKey 0) = none := by
    rcases bare with rfl | h0
    · rfl
    · rw [h0, ite_self]
  simp only [buildAnswer, unkeyed]

/-- An answer with a tag waits in hand until the tag has been computed (R151). -/
theorem buildAnswer_keyed {key : Block} (h0 : s.activeKey 0 = some key) :
    buildAnswer h r values false s =
      { s with
        order := { s.order with
          hand := some { h with
            handling := .answering (s.answerMessage h r values) (TagJob.start key (s.answerMessage h r values)) } } } := by
  simp only [buildAnswer, h0, Bool.false_eq_true, if_false]

end

end

/-- Settles O19: a notice by the three things its offering may do, an answer by whether a key stands to tag it. -/
theorem noticeIsOffered : Obligations.NoticeIsOffered := by
  refine ⟨fun kind variant values s => ?_, fun h r values untagged s => ?_, rfl⟩
  · intro message tag
    have made : s.noticeTag message = tag := by
      simp only [tag]
      split
      · next active hk => exact noticeTag_keyed (activeKey_of_active active hk) message
      · next h =>
        refine noticeTag_unkeyed (activeKey_of_not_active ?_) message
        by_contra! k
        obtain ⟨key, hk⟩ := Option.ne_none_iff_exists'.1 k.2
        exact h key k.1 hk
    refine ⟨offer_silent, fun main enabled => ?_⟩
    have queued : offer kind variant values s = s.queueNotice message := offer_queues main enabled
    exact ⟨fun room => by rw [queued, queueNotice_place room, made], fun full => queued.trans (queueNotice_lost full)⟩
  · intro message hand
    refine ⟨fun bare => buildAnswer_unkeyed (bare.imp_right activeKey_of_not_active), ?_⟩
    rintro rfl active key hk
    exact buildAnswer_keyed (activeKey_of_active active hk)

end Sys2Proof.Machine
end

section
/-! Proofs. SET TIME, SET NOTICE MASK, SET ALARM MASK, SET IDLE LIMIT, and the start of the idle timer (R171, R173, R178, R187). -/

namespace Sys2Proof.Machine

section
variable {s : State}

/-! ### The idle timer -/

theorem startIdle_running (limit : s.power.idleLimit ≠ 0) (operational : s.store.custody = .operational) :
    s.startIdle =
      { s with power := { s.power with idle := some { minutes := s.power.idleLimit, deadline := s.time.millis + 60000 } } } :=
  if_pos ⟨limit, operational⟩

theorem startIdle_stays (h : s.power.idleLimit = 0 ∨ s.store.custody ≠ .operational) : s.startIdle = s :=
  if_neg fun k => h.elim k.1 fun other => other k.2

theorem setIdleLimit_eq (operational : s.store.custody = .operational) (limit : Nat) :
    s.setIdleLimit limit =
      { s with
        power := { s.power with
          idleLimit := limit
          idle := if limit = 0 then none else some { minutes := limit, deadline := s.time.millis + 60000 } } } := by
  unfold State.setIdleLimit
  by_cases zero : limit = 0
  · simp only [zero, if_true]
  · simp only [zero, if_false]
    exact startIdle_running zero operational

/-! ### The notice mask -/

/-- The bits of TAMPER and POWER stand and none above them does (R173, 12.4). -/
theorem noticeMaskAllowed_iff (m : Nat) : noticeMaskAllowed m = true ↔ m.testBit 7 = true ∧ m.testBit 8 = true ∧ m < 512 := by
  simp only [noticeMaskAllowed, Nat.testBit_eq_decide_div_mod_eq, decide_eq_true_eq]
  omega

section
variable {a : OrderArgs}

theorem takeSetNoticeMask_writes (h : noticeMaskAllowed (numAt a.params 0 2) = true) :
    takeSetNoticeMask a s =
      .answered .done (be16 (numAt a.params 0 2))
        { s with report := { s.report with noticeMask := BitVec.ofNat 16 (numAt a.params 0 2) } } := by
  simp only [takeSetNoticeMask, h, need_true, checked_ok]

theorem takeSetNoticeMask_range (h : ¬noticeMaskAllowed (numAt a.params 0 2) = true) :
    takeSetNoticeMask a s = .answered .range [] s := by
  simp only [takeSetNoticeMask, eq_false_of_ne_true h, need_false, checked_error]

end

/-- An order that is passed in OPERATIONAL alone finds the unit so (7.8, R140). -/
theorem Accepting.operational {code : Byte} {width : Nat} {cls : OrderClass} {take : OrderArgs → State → Taken} {h : OrderInHand}
    (a : Accepting (knownOrder code width cls passWorking take) h s) : s.store.custody = .operational := by
  have screened := a.handles.screened
  rw [verdict_screen a.handles.decides.standing (by decide)] at screened
  exact of_decide_eq_true (screen_ok screened).2

end

/-- Settles O27: the two cases of the timer's start, then each order's own rule on the unit as acceptance leaves it. -/
theorem settingOrdersWrite : Obligations.SettingOrdersWrite := by
  refine ⟨fun s => ⟨startIdle_running, startIdle_stays, fun h => rfl⟩, fun s h => ?_⟩
  intro u v
  refine ⟨fun a => ?_, fun a => ⟨fun allowed => ?_, fun refused => ?_⟩, fun a => ?_, fun a => ?_⟩
  · rw [← acceptedState_time h s]
    exact accepted_row rfl a (by decide) (acceptedState_quiet a) rfl
  · exact accepted_row rfl a (by decide) (acceptedState_quiet a) (takeSetNoticeMask_writes ((noticeMaskAllowed_iff v).2 allowed))
  · exact accepted_refused rfl (by decide) a (takeSetNoticeMask_range fun k => refused ((noticeMaskAllowed_iff v).1 k))
  · exact accepted_row rfl a (by decide) (acceptedState_quiet a) rfl
  · intro minutes
    have operational : u.store.custody = .operational := (acceptedState_custody h s).trans a.operational
    rw [← acceptedState_time h s, ← setIdleLimit_eq operational]
    refine accepted_row rfl a (by decide) ?_ rfl
    rw [setIdleLimit_eq operational]
    exact acceptedState_quiet a

end Sys2Proof.Machine
end

section
/-! Proofs. What first power leaves (R182), and the four invariants in the reset state. -/

namespace Sys2Proof.Machine

/-! ### The tables at their reset values -/

/-- The record of a line at the Line Dispatcher's reset values (R121). -/
theorem line_initial {s : State} {links : Vector Bool 8} (h : s.dispatch = .initial links) (l : LineNo) :
    s.line l = Line.initial links[l.val] := by
  simp [State.line, h, Dispatcher.initial]

theorem group_initial {s : State} {links : Vector Bool 8} (h : s.dispatch = .initial links) (g : GroupNo) : s.group g = 0 := by
  simp [State.group, h, Dispatcher.initial]

/-- A line that names no key slot is OFF (R101). -/
theorem reported_initial {s : State} {links : Vector Bool 8} (h : s.dispatch = .initial links) (l : LineNo) : s.reported l = .off := by
  rw [reported_off_iff, State.lineKeyUsable, line_initial h]
  exact Bool.false_ne_true

theorem recipe_initial {s : State} (h : s.recipes = Recipes.initial) (r : RecipeNo) : s.recipe r = none := by
  simp [State.recipe, h, Recipes.initial]

theorem slot_initial {s : State} (h : s.store = .initial) (n : SlotNo) : s.slot n = Slot.blank false := by
  simp [State.slot, h, KeyStore.initial]

theorem sensor_initial {s : State} {inputs : Vector Bool 6} (h : s.tamper = .initial inputs) (i : SensorNo) :
    s.sensor i = Sensor.initial inputs[i.val] := by
  simp [State.sensor, h, TamperMonitor.initial]

theorem suspended_initial {s : State} (h : s.store = .initial) : s.suspended = false := by
  rw [State.suspended, h]; decide

/-! ### The conditions at first power -/

/-- Every block that a condition reads stands at its first-power value, the pins at any level (R182). -/
structure AtFirstPower (s : State) : Prop where
  store : s.store = .initial
  runs : s.runs = .initial
  lines : ∃ links, s.dispatch = .initial links
  link : ∃ up on, s.link = .initial up on
  tamper : ∃ inputs, s.tamper = .initial inputs
  time : s.time = .initial
  power : s.power = .initial
  lost : s.report.lost = .zero

theorem reset_atFirstPower : AtFirstPower State.reset :=
  ⟨rfl, rfl, ⟨_, rfl⟩, ⟨_, _, rfl⟩, ⟨_, rfl⟩, rfl, rfl, rfl⟩

theorem firstPowerState_atFirstPower (s : State) : AtFirstPower (firstPowerState s) :=
  ⟨rfl, rfl, ⟨_, rfl⟩, ⟨_, _, rfl⟩, ⟨_, rfl⟩, rfl, rfl, rfl⟩

section
variable {s : State} (p : AtFirstPower s)
include p

/-- At first power COMMISSIONING holds and no other condition, whatever the pins' levels (R176, R182). -/
theorem AtFirstPower.holds (c : Condition) : s.holds c = true ↔ c = .commissioning := by
  obtain ⟨store, runs, ⟨links, lines⟩, ⟨up, on, link⟩, ⟨inputs, tamper⟩, time, power, lost⟩ := p
  have reported := reported_initial lines
  have slot (n : SlotNo) : s.slot n = Slot.blank false := slot_initial store n
  have line (l : LineNo) : s.line l = Line.initial links[l.val] := line_initial lines l
  have sensor (i : SensorNo) : s.sensor i = Sensor.initial inputs[i.val] := sensor_initial tamper i
  cases c with
  | lineFault => simp [holds_lineFault_iff, reported]
  | lineLapse => simp [holds_lineLapse_iff, line, Line.initial]
  | runHeld => simp [holds_runHeld_iff, runs, RunController.initial]
  | overspoil => simp [holds_overspoil_iff, runs, RunController.initial]
  | keyDamaged => simp [holds_keyDamaged_iff, slot, Slot.blank]
  | keySpent => simp [holds_keySpent_iff, slot, Slot.blank]
  | storeSuspended => simp [holds_storeSuspended_iff, store, KeyStore.initial]
  | dormant => simp [holds_dormant_iff, store, KeyStore.initial]
  | tamper => simp [holds_tamper_iff, sensor, tamper, TamperMonitor.initial, Sensor.initial, Counter.zero]
  | cabinetOpen => simp [holds_cabinetOpen_iff, sensor, tamper, TamperMonitor.initial, Sensor.initial]
  | settling => simp [holds_settling_iff, power, PowerController.initial]
  | storeBusy => simp [holds_storeBusy_iff, store, KeyStore.initial]
  | noticesLost => simp [holds_noticesLost_iff, lost, Counter.zero]
  | linkError =>
    simp [holds_linkError_iff, link, line, LinkController.initial, Line.initial, UpFlags.clear, PortFlags.clear]
  | countLimit =>
    simp [holds_countLimit_iff, slot, runs, line, tamper, lost, time, Slot.blank, RunController.initial, Line.initial,
      TamperMonitor.initial, TimeBase.initial, Counter.zero]
  | commissioning => simp [holds_commissioning_iff, store, KeyStore.initial]

/-- The summary of COMMISSIONING alone (R190). -/
theorem AtFirstPower.summary : s.summary = 0x0001 := by
  have only : s.holds = fun c => decide (c = .commissioning) := funext fun c => Bool.eq_iff_iff.2 (by simp [p.holds c])
  rw [State.summary, only]
  decide

/-- The alarm mask of the reset covers COMMISSIONING (R178, R179). -/
theorem AtFirstPower.alarmOutput (mask : s.report.alarmMask = 0x657F) : s.alarmOutput = false := by
  rw [State.alarmOutput, p.summary, mask]
  exact Bool.and_false _

end

/-! ### First power -/

/-- The POWER notice is the first of the Notice Queue as a reset leaves it (R185). -/
theorem offerPower_queues {s : State} (main : s.power.supply = .main) (report : s.report = ReportUnit.initial) (cause : PowerCause)
    (lossTime : Option Nat) (trips : Option Counter) (zeroised : Option Bool) :
    offerPower cause lossTime trips zeroised s =
      (let message := s.noticeMessage .power cause.code (powerValues cause s lossTime trips zeroised)
       { s with report := { ReportUnit.initial with notices := [{ message := message, tag := s.noticeTag message }] } }) := by
  rw [offerPower, offer_queues main (by rw [report]; decide), queueNotice_place (by rw [report]; decide), report]
  rfl

theorem noticeMessage_firstPower (s : State) :
    (firstPowerState s).noticeMessage .power PowerCause.firstPower.code
        (powerValues .firstPower (firstPowerState s) none (some .zero) (some false)) =
      Notice.firstPower.message := by
  have built : State.reset.noticeMessage .power PowerCause.firstPower.code
      (powerValues .firstPower State.reset none (some .zero) (some false)) = Notice.firstPower.message := by
    rw [State.noticeMessage, reset_atFirstPower.summary]
    decide
  rw [← built, State.noticeMessage, State.noticeMessage, (firstPowerState_atFirstPower s).summary, reset_atFirstPower.summary]
  rfl

theorem noticeTag_firstPower (s : State) (message : Bytes) : (firstPowerState s).noticeTag message = .ready 0 :=
  noticeTag_unkeyed (activeKey_of_not_active (.inl (by rw [slot_initial rfl]; decide))) message

/-- First power leaves the reset state with the levels of the pins (R182). -/
theorem exec_firstPower {s : State} (supply : s.power.supply = .battery) (valid : s.power.valid = false) :
    exec .firstPower s =
      .next { firstPowerState s with report := { ReportUnit.initial with notices := [Notice.firstPower] } } := by
  have run : exec .firstPower s = .next (offerPower .firstPower none (some .zero) (some false) (firstPowerState s)) :=
    if_pos ⟨supply, valid⟩
  rw [run, offerPower_queues rfl rfl]
  simp only [noticeMessage_firstPower, noticeTag_firstPower]
  rfl

/-- Settles O3: the reset state block by block, then first power with the summary of COMMISSIONING alone in its notice. -/
theorem firstPower : Obligations.FirstPower := by
  refine ⟨?_, fun s supply valid => ?_⟩
  · have p := reset_atFirstPower
    exact ⟨slot_initial rfl, rfl, rfl, suspended_initial rfl, rfl, rfl, rfl, rfl, rfl, rfl, recipe_initial rfl, rfl,
      fun l => (by rw [line_initial rfl]; exact ⟨rfl, rfl, rfl, rfl, rfl, rfl, reported_initial rfl l⟩), group_initial rfl, rfl, rfl,
      rfl, rfl, rfl, rfl, rfl, rfl, rfl, fun i => (by rw [sensor_initial rfl]; exact ⟨rfl, rfl, rfl⟩), rfl, rfl, rfl, rfl, rfl,
      rfl, rfl, rfl, rfl, rfl, rfl, p.holds, p.alarmOutput rfl⟩
  · exact exec_firstPower supply valid

/-! ### The invariants -/

/-- Settles O8: every table and queue is empty, the unit is in FACTORY, and the Core and the Order Unit are idle. -/
theorem invariantsAtReset : Obligations.InvariantsAtReset := by
  have line (l : LineNo) := line_initial (s := State.reset) rfl l
  have bounded : Bounded State.reset := {
    table := by decide
    staging := by decide
    notices := by decide
    onward := by decide
    relay := by decide
    gate := by decide
    record := by decide
    limits := fun l => by rw [line l]; simp [Line.initial]
    credit := fun l => by rw [line l]; exact Nat.zero_le _ }
  exact ⟨bounded, zeroisedEmpty_of_custody (by decide), ⟨List.nodup_nil, nofun⟩, tidy_of_reset rfl rfl⟩

end Sys2Proof.Machine
end

section
/-! Proofs. Loss and return of the supplies, and a warm reset (R180 to R186): what the reset of the main domain leaves, how the events
after it add to that, and the unit when the event has ended. -/

namespace Sys2Proof.Machine

/-! ### The reset of the main domain -/

theorem mainReset_slot (s : State) (n : SlotNo) : (mainReset s).slot n = { s.slot n with deadline := none } := by
  simp [mainReset, KeyStore.resetMain, State.slot]

/-- The unit `u` has the main domain of `s` at its reset values, and of the battery domain what `s` holds, but for what the rest of a
power event may write: the slots, the verify and the copies, the monitor, the notices and the marks of the Power Controller. -/
def MainFresh (s u : State) : Prop :=
  u = { mainReset s with
    store := { s.store with
      slots := u.store.slots, verify := u.store.verify, verifyWaits := u.store.verifyWaits, working := u.store.working }
    tamper := u.tamper
    report := { ReportUnit.initial with notices := u.report.notices, lost := u.report.lost }
    power := { s.power with
      supply := .main, idleLimit := 60, idle := none
      lossTime := u.power.lossTime, batteryZeroised := u.power.batteryZeroised, settling := u.power.settling } }

/-- The first notice of the queue is a POWER notice, at most `n` stand behind it, and none was lost if they fit (R175, R185). -/
structure PowerFirst (n : Nat) (u : State) : Prop where
  first : ∃ p rest, u.report.notices = p :: rest ∧ sliceBytes p.message 8 1 = [0x09] ∧ rest.length ≤ n
  lost : n ≤ 15 → u.report.lost = .zero

/-- From `u` to `v` the store's slots and its verify change, and at most `n` notices are offered. -/
structure Proceeds (n : Nat) (u v : State) : Prop where
  same : v = { u with
    store := { u.store with slots := v.store.slots, verify := v.store.verify, verifyWaits := v.store.verifyWaits }
    report := { u.report with notices := v.report.notices, lost := v.report.lost } }
  notices : ∃ l, v.report.notices = u.report.notices ++ l ∧ l.length ≤ n
  lost : u.report.notices.length + n ≤ 16 → v.report.lost = u.report.lost

theorem MainFresh.proceeds {s u v : State} {n : Nat} (h : MainFresh s u) (k : Proceeds n u v) : MainFresh s v := by
  have same := k.same
  rw [MainFresh] at *
  rw [same, h]

theorem PowerFirst.proceeds {u v : State} {m n : Nat} (h : PowerFirst m u) (k : Proceeds n u v) : PowerFirst (m + n) v := by
  obtain ⟨⟨p, rest, queue, power, length⟩, lost⟩ := h
  obtain ⟨-, ⟨l, added, most⟩, none_lost⟩ := k
  refine ⟨⟨p, rest ++ l, by rw [added, queue]; rfl, power, by rw [List.length_append]; omega⟩, fun room => ?_⟩
  rw [none_lost (by rw [queue, List.length_cons]; omega), lost (by omega)]

/-! ### The assemblies lapse -/

theorem assemblies_length (s : State) :
    s.assemblies.length = (List.finRange 64).countP fun n => decide ((s.slot n).state = .assembling) :=
  List.countP_eq_length_filter.symm

theorem Lapsed.proceeds {u v : State} (h : Lapsed (List.finRange 64) u v) : Proceeds u.assemblies.length u v := by
  obtain ⟨same, -, noticeMask, alarmMask, notices⟩ := h
  have report : v.report = { u.report with notices := v.report.notices, lost := v.report.lost } :=
    calc v.report
      _ = ⟨v.report.notices, v.report.noticeMask, v.report.alarmMask, v.report.lost⟩ := rfl
      _ = _ := by rw [noticeMask, alarmMask]
  rw [← assemblies_length] at notices
  obtain ⟨l, added, most, lost⟩ := notices
  refine ⟨?_, ⟨l, added, most⟩, lost⟩
  rw [same]
  congr 1

/-- What a return of power leaves of a slot: no assembly, and no deadline (R30, R180). -/
def Slot.returned (k : Slot) : Slot := if k.state = .assembling then Slot.blank k.lock else { k with deadline := none }

theorem returned_visited (k : Slot) : k.returned.visited = k.visited := by
  unfold Slot.returned
  split
  · next assembling => simp [Slot.visited, Slot.blank, assembling]
  · rfl

/-! ### The verify -/

/-- A verify that begins or waits changes no slot, and offers at most its VERIFIED notice (R24). -/
structure VerifyStarts (u v : State) : Prop where
  proceeds : Proceeds 1 u v
  slots : v.store.slots = u.store.slots

theorem proceeds_of_verify (n : Nat) (u : State) (verify : Option Verify) (waits : Bool) :
    Proceeds n u { u with store := { u.store with verify := verify, verifyWaits := waits } } :=
  ⟨rfl, ⟨[], (List.append_nil _).symm, Nat.zero_le n⟩, fun _ => rfl⟩

theorem starts_of_verify (u : State) (verify : Option Verify) (waits : Bool) :
    VerifyStarts u { u with store := { u.store with verify := verify, verifyWaits := waits } } :=
  ⟨proceeds_of_verify 1 u verify waits, rfl⟩

theorem Proceeds.offers {u v : State} (h : Proceeds 0 u v) (kind : NoticeKind) (variant : Byte) (values : Bytes) :
    Proceeds 1 u (offer kind variant values v) := by
  obtain ⟨same, ⟨l, added, most⟩, lost⟩ := h
  obtain rfl : l = [] := List.length_eq_zero_iff.1 (Nat.le_zero.1 most)
  have queue : v.report.notices = u.report.notices := added.trans (List.append_nil _)
  obtain ⟨m, told, one, none_lost⟩ := offer_report kind variant values v
  refine ⟨?_, ⟨m, by rw [told, queue], one⟩, fun room => ?_⟩
  · have only := offer_only kind variant values v
    rw [NoticesOnly] at only
    rw [only, same]
  · rw [none_lost (by rw [queue]; omega), lost (by omega)]

/-- A verify begins at a slot to visit, or, for a restore, may end at once (R24). -/
theorem beginVerify_starts {u : State} {cause : VerifyCause} (h : cause = .restore ∨ ∃ n, (u.slot n).visited = true) :
    VerifyStarts u (beginVerify cause u) ∧ (beginVerify cause u).store.verifyWaits = u.store.verifyWaits := by
  rw [beginVerify, visitFrom]
  cases next : u.nextVisit 0 with
  | some n => exact ⟨starts_of_verify u (some { cause := cause, slot := n, damaged := 0 }) u.store.verifyWaits, rfl⟩
  | none =>
    have unvisited : ¬∃ n, (u.slot n).visited = true := fun ⟨n, visited⟩ => by
      rw [State.nextVisit, List.find?_eq_none] at next
      exact next n (List.mem_finRange n) (by simpa using visited)
    obtain rfl := h.resolve_right unvisited
    have ended : (finishVerify .restore 0 u).store = { u.store with verify := none } := by simp [finishVerify, offerKey]
    exact ⟨⟨(proceeds_of_verify 0 u none u.store.verifyWaits).offers _ _ _, by rw [ended]⟩, by rw [ended]⟩

/-- With no slot to visit a restore's verify ends at once (R24). -/
theorem beginVerify_unvisited {u : State} (h : ∀ n, (u.slot n).visited = false) : (beginVerify .restore u).store.verify = none := by
  rw [beginVerify, visitFrom, nextVisit_none h]
  simp [finishVerify, offerKey]

/-- With a scrub in progress a restore's verify waits (R183). -/
theorem restoreVerify_waits {u : State} (scrub : u.store.scrub ≠ none) :
    restoreVerify u = { u with store := { u.store with verifyWaits := true } } :=
  if_pos (Option.isSome_iff_ne_none.2 scrub)

theorem restoreVerify_later {u : State} (scrub : u.store.scrub ≠ none) (idle : u.store.verify = none) :
    (restoreVerify u).store.verifyWaits = true ∧ (restoreVerify u).store.verify = none := by
  rw [restoreVerify_waits scrub]
  exact ⟨rfl, idle⟩

theorem restoreVerify_begins {u : State} (scrub : u.store.scrub = none) : restoreVerify u = beginVerify .restore u :=
  if_neg (by simp [scrub])

theorem restoreVerify_starts (u : State) : VerifyStarts u (restoreVerify u) := by
  by_cases scrub : u.store.scrub = none
  · rw [restoreVerify_begins scrub]
    exact (beginVerify_starts (.inl rfl)).1
  · rw [restoreVerify_waits scrub]
    exact starts_of_verify u u.store.verify true

theorem restartVerify_none {u : State} (h : u.store.verify = none) : restartVerify u = u := by simp only [restartVerify, h]

theorem restartVerify_some {u : State} {v : Verify} (h : u.store.verify = some v) : restartVerify u = beginVerify v.cause u := by
  simp only [restartVerify, h]

theorem restartVerify_starts {u : State} (h : ∀ v, u.store.verify = some v → (u.slot v.slot).visited = true) :
    VerifyStarts u (restartVerify u) ∧ (restartVerify u).store.verifyWaits = u.store.verifyWaits := by
  cases verify : u.store.verify with
  | none =>
    rw [restartVerify_none verify]
    exact ⟨starts_of_verify u u.store.verify u.store.verifyWaits, rfl⟩
  | some v =>
    rw [restartVerify_some verify]
    exact beginVerify_starts (.inr ⟨v.slot, h v verify⟩)

/-! ### The unit when the event has ended -/

theorem resumeWork_eq {u : State} (limit : u.power.idleLimit ≠ 0) :
    resumeWork u =
      { u with
        store := { u.store with
          working := if u.store.custody = .operational then u.store.slots.map Slot.usable else Vector.replicate 64 false }
        power := { u.power with
          idle := if u.store.custody = .operational then some { minutes := u.power.idleLimit, deadline := u.time.millis + 60000 }
            else u.power.idle } } := by
  by_cases operational : u.store.custody = .operational
  · rw [resumeWork, startIdle_running (by exact limit) (by exact operational)]
    simp only [State.readyCopies, if_pos operational]
  · rw [resumeWork, startIdle_stays (.inr (by exact operational)), if_neg operational, if_neg operational]
    simp only [State.readyCopies, if_neg operational]

section
variable {s u : State} (h : MainFresh s u)
include h

theorem MainFresh.core : u.core = .initial := by rw [h]; rfl
theorem MainFresh.hand : u.order.hand = none := by rw [h]; rfl
theorem MainFresh.millis : u.time.millis = 0 := by rw [h]; rfl
theorem MainFresh.limit : u.power.idleLimit ≠ 0 := by rw [h]; exact Nat.succ_ne_zero 59

/-- The Core at the end of the event holds steps of the verify and the notices alone (R32, R33). -/
theorem MainFresh.resumed_core :
    SettlesTo (resumeWork u) (settleCore (resumeWork u)) ∧ (settleCore (resumeWork u)).core.engineWaits = none ∧
      (∀ k ∈ (settleCore (resumeWork u)).core.queue, k.user = .verify ∨ k.user = .report) ∧
      ((settleCore (resumeWork u)).core.work = .idle ∨
        ∃ k, (settleCore (resumeWork u)).core.work = .keyStore k false ∧ (k.user = .verify ∨ k.user = .report)) := by
  refine settleCore_fresh ?_ ?_
  · rw [resumeWork_eq h.limit]
    exact h.core
  · rw [resumeWork_eq h.limit]
    exact h.hand

end

/-- When the event has ended the copies and the idle timer stand as the custody state asks, and the Core may have begun a step
(R30, R32, R187). -/
theorem MainFresh.resumed {s u : State} (h : MainFresh s u) :
    settleCore (resumeWork u) =
      { mainReset s with
        store := { s.store with
          slots := u.store.slots, verify := u.store.verify, verifyWaits := u.store.verifyWaits
          working := if s.store.custody = .operational then u.store.slots.map Slot.usable else Vector.replicate 64 false }
        core := (settleCore (resumeWork u)).core
        tamper := u.tamper
        report := { ReportUnit.initial with notices := u.report.notices, lost := u.report.lost }
        power := { s.power with
          supply := .main, idleLimit := 60
          idle := if s.store.custody = .operational then some { minutes := 60, deadline := 60000 } else none
          lossTime := u.power.lossTime, batteryZeroised := u.power.batteryZeroised, settling := u.power.settling }
        free := (settleCore (resumeWork u)).free } := by
  obtain ⟨settles, -⟩ := h.resumed_core
  have limit := h.limit
  have deadline : u.time.millis + 60000 = 60000 := by rw [h.millis]; exact BitVec.zero_add _
  generalize settleCore (resumeWork u) = t at *
  rw [SettlesTo] at settles
  rw [settles, resumeWork_eq limit, deadline, h]

section
variable {s u : State} (h : MainFresh s u)
include h

theorem MainFresh.resumed_verify :
    (settleCore (resumeWork u)).store.verify = u.store.verify ∧ (settleCore (resumeWork u)).store.verifyWaits = u.store.verifyWaits := by
  rw [h.resumed]
  exact ⟨rfl, rfl⟩

theorem MainFresh.resumed_tamper : (settleCore (resumeWork u)).tamper = u.tamper := by rw [h.resumed]

theorem MainFresh.resumed_power :
    (settleCore (resumeWork u)).power.settling = u.power.settling ∧ (settleCore (resumeWork u)).power.lossTime = u.power.lossTime ∧
      (settleCore (resumeWork u)).power.batteryZeroised = u.power.batteryZeroised := by
  rw [h.resumed]
  exact ⟨rfl, rfl, rfl⟩

end

/-! ### From the reset of the main domain to the verify -/

/-- The main domain's reset with the POWER notice offered to its empty queue (R180, R185). -/
structure Reported (s a : State) : Prop where
  fresh : MainFresh s a
  slots : ∀ n, a.slot n = { s.slot n with deadline := none }
  told : PowerFirst 0 a

/-- The unit `u`, on its way out of a return of power to `s`, with the assemblies lapsed and the POWER notice first. -/
structure Restarted (s u : State) : Prop where
  fresh : MainFresh s u
  slots : ∀ n, u.slot n = (s.slot n).returned
  told : PowerFirst (s.assemblies.length + 1) u

section
variable {s a : State} (h : Reported s a)
include h

theorem Reported.lapsed : Lapsed (List.finRange 64) a (lapseAssemblies a) := lapseAssemblies_lapsed h.fresh.hand

theorem Reported.assemblies_length : a.assemblies.length = s.assemblies.length := by
  simp only [Machine.assemblies_length, h.slots]

theorem Reported.lapsed_slot (n : SlotNo) : (lapseAssemblies a).slot n = (s.slot n).returned := by
  rw [h.lapsed.slots, h.slots, Slot.returned]
  simp only [List.mem_finRange, true_and]

theorem Reported.lapsed_visited (n : SlotNo) : ((lapseAssemblies a).slot n).visited = (s.slot n).visited := by
  rw [h.lapsed_slot, returned_visited]

theorem Reported.lapsed_verify : (lapseAssemblies a).store.verify = a.store.verify := by rw [h.lapsed.same]

theorem Reported.lapsed_waits : (lapseAssemblies a).store.verifyWaits = a.store.verifyWaits := by rw [h.lapsed.same]

theorem Reported.lapsed_scrub : (lapseAssemblies a).store.scrub = s.store.scrub := by rw [h.lapsed.same, h.fresh]

theorem Reported.restarted {c : State} (starts : VerifyStarts (lapseAssemblies a) c) : Restarted s c where
  fresh := (h.fresh.proceeds h.lapsed.proceeds).proceeds starts.proceeds
  slots n := by rw [← h.lapsed_slot, State.slot, State.slot, starts.slots]
  told := by
    have told := (h.told.proceeds h.lapsed.proceeds).proceeds starts.proceeds
    rwa [h.assemblies_length, Nat.zero_add] at told

theorem Reported.started_power {c : State} (starts : VerifyStarts (lapseAssemblies a) c) : c.power = a.power := by
  rw [starts.proceeds.same, h.lapsed.same]

theorem Reported.started_tamper {c : State} (starts : VerifyStarts (lapseAssemblies a) c) : c.tamper = a.tamper := by
  rw [starts.proceeds.same, h.lapsed.same]

/-- A verify begins at the first slot that was ACTIVE or RETIRED before (R24). -/
theorem Reported.begins {cause : VerifyCause} {n : SlotNo} (start : (s.slot n).state = .active ∨ (s.slot n).state = .retired)
    (below : ∀ m : SlotNo, m.val < n.val → ¬((s.slot m).state = .active ∨ (s.slot m).state = .retired)) :
    (beginVerify cause (lapseAssemblies a)).store.verify = some { cause := cause, slot := n, damaged := 0 } := by
  simp only [← visited_iff, ← h.lapsed_visited] at start below
  rw [beginVerify_first cause ((visited_iff _).1 start) fun m hm => (not_visited_iff _).1 (eq_false_of_ne_true (below m hm))]

theorem Reported.begins_none (unvisited : ∀ n, ¬((s.slot n).state = .active ∨ (s.slot n).state = .retired)) :
    (beginVerify .restore (lapseAssemblies a)).store.verify = none := by
  simp only [← visited_iff, ← h.lapsed_visited] at unvisited
  exact beginVerify_unvisited fun n => eq_false_of_ne_true (unvisited n)

end

/-- The first queue of a reset main domain holds the POWER notice alone (R185). -/
theorem powerFirst_alone {u : State} (message : Bytes) (tag : NoticeTag) (power : sliceBytes message 8 1 = [0x09])
    (report : u.report = { ReportUnit.initial with notices := [{ message := message, tag := tag }] }) : PowerFirst 0 u :=
  ⟨⟨_, [], by rw [report], power, Nat.le_refl 0⟩, fun _ => by rw [report]; rfl⟩

theorem noticeMessage_power (s : State) (variant : Byte) (values : Bytes) :
    sliceBytes (s.noticeMessage .power variant values) 8 1 = [0x09] := rfl

theorem offerPower_alone {u : State} (main : u.power.supply = .main) (report : u.report = ReportUnit.initial) (cause : PowerCause)
    (lossTime : Option Nat) (trips : Option Counter) (zeroised : Option Bool) :
    ∃ message tag, sliceBytes message 8 1 = [0x09] ∧
      offerPower cause lossTime trips zeroised u =
        { u with report := { ReportUnit.initial with notices := [{ message := message, tag := tag }] } } :=
  ⟨_, _, noticeMessage_power u cause.code (powerValues cause u lossTime trips zeroised),
    offerPower_queues main report cause lossTime trips zeroised⟩

/-- What main restore writes before the assemblies lapse (R183, R186). -/
theorem reportRestore_eq (s : State) :
    ∃ message tag, sliceBytes message 8 1 = [0x09] ∧
      reportRestore (restoreDomains s) =
        { mainReset s with
          tamper := { s.tamper with batteryTrips := .zero }
          report := { ReportUnit.initial with notices := [{ message := message, tag := tag }] }
          power := { s.power with
            supply := .main, idleLimit := 60, idle := none, settling := some 250, batteryZeroised := false, lossTime := none } } := by
  obtain ⟨message, tag, power, offered⟩ :=
    offerPower_alone (u := { restoreDomains s with tamper := { s.tamper with batteryTrips := .zero } }) rfl rfl .mainRestore
      s.power.lossTime (some s.tamper.batteryTrips) (some s.power.batteryZeroised)
  refine ⟨message, tag, power, ?_⟩
  calc reportRestore (restoreDomains s)
    _ = (let u := offerPower .mainRestore s.power.lossTime (some s.tamper.batteryTrips) (some s.power.batteryZeroised)
          { restoreDomains s with tamper := { s.tamper with batteryTrips := .zero } }
        { u with power := { u.power with batteryZeroised := false, lossTime := none } }) := rfl
    _ = _ := by rw [offered]; rfl

theorem restore_reported (s : State) : Reported s (reportRestore (restoreDomains s)) := by
  obtain ⟨message, tag, power, restored⟩ := reportRestore_eq s
  rw [restored]
  exact ⟨rfl, mainReset_slot s, powerFirst_alone message tag power rfl⟩

/-- What a warm reset writes before the assemblies lapse: a verify and what is left of the settling inhibit stay (R184, R186). -/
theorem offerPower_warmDomains {s : State} (main : s.power.supply = .main) :
    ∃ message tag, sliceBytes message 8 1 = [0x09] ∧
      offerPower .warmReset none none none (warmDomains s) =
        { mainReset s with
          store := { s.store.resetMain with verify := s.store.verify, verifyWaits := s.store.verifyWaits }
          report := { ReportUnit.initial with notices := [{ message := message, tag := tag }] }
          power := { s.power with supply := .main, idleLimit := 60, idle := none, settling := s.settlingLeft } } := by
  obtain ⟨message, tag, power, offered⟩ := offerPower_alone (u := warmDomains s) main rfl .warmReset none none none
  refine ⟨message, tag, power, ?_⟩
  rw [offered, ← main]
  rfl

theorem warm_reported {s : State} (main : s.power.supply = .main) :
    Reported s (offerPower .warmReset none none none (warmDomains s)) := by
  obtain ⟨message, tag, power, reset⟩ := offerPower_warmDomains main
  rw [reset]
  exact ⟨rfl, mainReset_slot s, powerFirst_alone message tag power rfl⟩

/-! ### The events -/

theorem exec_mainRestore {s : State} (off : s.power.supply = .battery) (valid : s.power.valid = true) :
    exec .mainRestore s =
      .next (settleCore (resumeWork (restoreVerify (lapseAssemblies (reportRestore (restoreDomains s)))))) :=
  if_pos ⟨off, valid⟩

theorem exec_warmReset {s : State} (main : s.power.supply = .main) :
    exec .warmReset s =
      .next
        (settleCore
          (resumeWork (restartVerify (lapseAssemblies (offerPower .warmReset none none none (warmDomains s)))))) :=
  if_pos (decide_eq_true main)

theorem exec_mainLoss {s : State} (main : s.power.supply = .main) :
    exec .mainLoss s =
      .next { mainReset s with
        power := { s.power.resetMain with supply := .battery, lossTime := some s.time.seconds.value } } :=
  if_pos (decide_eq_true main)

theorem exec_batteryLoss {s : State} (off : s.power.supply = .battery) (valid : s.power.valid = true) :
    exec .batteryLoss s =
      .next { firstPowerState s with power := { PowerController.initial with supply := .battery, valid := false } } :=
  if_pos ⟨off, valid⟩

/-! ### The unit after the event -/

/-- A line after the reset of the main domain, with its LINK fault by the level of its port's link (R121). -/
theorem line_reset {s t : State} (h : t.dispatch = .initial s.lineLinks) (l : LineNo) : t.line l = Line.initial (s.line l).linkUp := by
  rw [line_initial h]
  simp only [State.lineLinks, Vector.getElem_map, State.line]

/-- The conditions that the alarm mask of a reset leaves (R178, R179). -/
theorem alarmOutput_reset {t : State} (main : t.power.supply = .main) (mask : t.report.alarmMask = 0x657F) :
    t.alarmOutput = true ↔ t.summary &&& 0x9A80 ≠ 0 := by
  simp only [State.alarmOutput, State.mainUp, main, mask, decide_true, Bool.true_and, decide_eq_true_eq]
  rfl

/-- The slots with a working copy are the usable ones of an OPERATIONAL unit (R3, R30). -/
theorem working_iff {t : State}
    (h : t.store.working =
      if t.store.custody = .operational then t.store.slots.map Slot.usable else Vector.replicate 64 false) (n : SlotNo) :
    t.store.working[n.val] = true ↔
      t.store.custody = .operational ∧ (t.slot n).state = .active ∧
        ((t.slot n).ceiling = 0 ∨ (t.slot n).uses.value < (t.slot n).ceiling) := by
  rw [← usable_iff, h]
  by_cases operational : t.store.custody = .operational
  · rw [if_pos operational, Vector.getElem_map]
    exact ⟨fun usable => ⟨operational, usable⟩, And.right⟩
  · rw [if_neg operational, Vector.getElem_replicate]
    exact ⟨nofun, fun both => absurd both.1 operational⟩

/-- Settles O60: the two losses by what they write; each return of power by what every return leaves (`returned`) and by what becomes of
the verify. -/
theorem supplyIsLostAndReturns : Obligations.SupplyIsLostAndReturns := by
  refine ⟨fun s => ⟨fun main => ⟨_, exec_mainLoss main, ?_⟩, fun off valid => ⟨_, exec_batteryLoss off valid, ?_⟩⟩, fun s => ?_⟩
  · exact ⟨rfl, rfl, rfl, rfl, mainReset_slot s, rfl, rfl, rfl, rfl, rfl, rfl, rfl, rfl, rfl, rfl, rfl, rfl, rfl, rfl, rfl, rfl, rfl⟩
  · exact ⟨rfl, rfl, slot_initial rfl, rfl, rfl, rfl⟩
  intro common visits first
  have returned {c : State} (h : Restarted s c) : common (settleCore (resumeWork c)) := by
    obtain ⟨-, waits, queue, work⟩ := h.fresh.resumed_core
    have ended := h.fresh.resumed
    obtain ⟨⟨p, rest, notices, power, -⟩, lost⟩ := h.told
    rw [assemblies_length] at lost
    generalize settleCore (resumeWork c) = t at *
    rw [ended]
    exact ⟨rfl, rfl, rfl, rfl, rfl, rfl, rfl, rfl, rfl, rfl, rfl, rfl, rfl, rfl, recipe_initial rfl, line_reset rfl, reported_initial rfl,
      group_initial rfl, rfl, rfl, rfl, fun few => lost (Nat.succ_le_succ few), rfl, rfl, rfl, rfl, rfl, rfl, rfl, rfl, rfl, rfl, rfl,
      waits, queue, work, rfl, rfl, alarmOutput_reset rfl rfl, h.slots, working_iff rfl, ⟨p, rest, notices, power⟩, rfl⟩
  refine ⟨fun off valid => ?_, fun main visited => ?_⟩
  · have told := restore_reported s
    obtain ⟨message, tag, -, reported⟩ := reportRestore_eq s
    have run := exec_mainRestore off valid
    generalize reportRestore (restoreDomains s) = a at *
    have starts := restoreVerify_starts (lapseAssemblies a)
    have restarted := told.restarted starts
    have power := (told.started_power starts).trans (congrArg State.power reported)
    have tamper := (told.started_tamper starts).trans (congrArg State.tamper reported)
    have verify : (lapseAssemblies a).store.verify = none := told.lapsed_verify.trans (by rw [reported]; rfl)
    have waits : (lapseAssemblies a).store.verifyWaits = false := told.lapsed_waits.trans (by rw [reported]; rfl)
    refine ⟨_, run, returned restarted, ?_⟩
    obtain ⟨settling, lossTime, zeroised⟩ := restarted.fresh.resumed_power
    obtain ⟨verifying, waiting⟩ := restarted.fresh.resumed_verify
    rw [settling, lossTime, zeroised, restarted.fresh.resumed_tamper, verifying, waiting, power, tamper]
    refine ⟨rfl, rfl, rfl, rfl, fun scrub => ?_, fun scrub => ?_⟩
    · exact restoreVerify_later (by rwa [told.lapsed_scrub]) verify
    · rw [restoreVerify_begins (by rwa [told.lapsed_scrub])]
      exact ⟨(beginVerify_starts (.inl rfl)).2.trans waits, fun n start => told.begins start.1 start.2, told.begins_none⟩
  · have told := warm_reported main
    obtain ⟨message, tag, -, reported⟩ := offerPower_warmDomains main
    have run := exec_warmReset main
    generalize offerPower .warmReset none none none (warmDomains s) = a at *
    have verify : (lapseAssemblies a).store.verify = s.store.verify := told.lapsed_verify.trans (by rw [reported])
    have waits : (lapseAssemblies a).store.verifyWaits = s.store.verifyWaits := told.lapsed_waits.trans (by rw [reported])
    obtain ⟨starts, kept⟩ := restartVerify_starts (u := lapseAssemblies a)
      fun v h => (told.lapsed_visited v.slot).trans (visited v (verify.symm.trans h))
    have restarted := told.restarted starts
    have power := (told.started_power starts).trans (congrArg State.power reported)
    have tamper := (told.started_tamper starts).trans (congrArg State.tamper reported)
    refine ⟨_, run, returned restarted, ?_⟩
    obtain ⟨settling, lossTime, -⟩ := restarted.fresh.resumed_power
    obtain ⟨verifying, waiting⟩ := restarted.fresh.resumed_verify
    rw [settling, lossTime, restarted.fresh.resumed_tamper, verifying, waiting, power, tamper]
    refine ⟨rfl, rfl, rfl, kept.trans waits, fun h => ?_, fun v n h start => ?_⟩
    · rw [restartVerify_none (verify.trans h)]
      exact verify.trans h
    · rw [restartVerify_some (verify.trans h)]
      exact told.begins start.1 start.2

end Sys2Proof.Machine
end

section
/-! Proofs. The step of a unit whose queue holds a command (0.13). -/

namespace Sys2Proof.Machine

/-- Settles O1: a queue with a command at its front leaves `step` its second case, the command's meaning on the queue's rest. -/
theorem stepRunsFrontCommand : Obligations.StepRunsFrontCommand := by
  intro c rest s front
  rw [step, front]

end Sys2Proof.Machine
end
